-- ==== Sys2Proof/Word.lean ====
section
/-! DEFINITION. The word types of the block: bytes and 64-bit words of the command stream, the
binary32 payload pattern, the binary64 number, and text as a sequence of characters
(spec/00_scope.md R9, R10; spec/20_memory.md R210, R212; spec/47_beam_decoder.md R1100). -/

namespace Sys2Proof

/-- A byte of the command stream (R210). -/
abbrev Byte := BitVec 8

/-- A `u64` that the block counts with or the host reads (R9, R19). -/
abbrev U64 := BitVec 64

/-- The bit pattern of an IEEE-754 binary32 payload, `P = W[31:0]` (R300, R301). -/
abbrev F32 := BitVec 32

/-- An IEEE-754 binary64 number, given by its 64-bit encoding (R9). A structure of its own, so that
no integer operation of `BitVec` is applied to it by mistake. -/
structure F64 where
  /-- The binary64 encoding: sign, 11 exponent bits, 52 fraction bits. -/
  bits : BitVec 64
deriving DecidableEq, Repr, Inhabited

/-- A `string`: a finite sequence of Unicode scalar values (R9, R1100). -/
abbrev Text := List Char

end Sys2Proof
end

