-- ==== Sys2Proof/Syntax.lean ====
section
/-! DEFINITION. The instructions: the ten host commands of spec/30_encoding.md R302 and the 44 internal
micro-operations of R303, one constructor per row of spec/opcode_table.json. A host command carries
the fields of its word that it uses (`F`, `P`). A micro-operation carries nothing: its id is only a
name (R303), and its operands reach it in the operand latch of the state (log entry 6). -/

namespace Sys2Proof

/-- One constructor per row of spec/opcode_table.json. -/
inductive Instr where
  /-- NOP, op 0x00 (R401) -/
  | nop
  /-- SAMPLE, op 0x01, `P` = the f32 sample (R402) -/
  | sample (p : F32)
  /-- CHUNK_END, op 0x02 (R404) -/
  | chunkEnd
  /-- FLUSH, op 0x03 (R405) -/
  | flush
  /-- RESET, op 0x04; its record is beside the word (R406, R307) -/
  | reset
  /-- READ_RESULT, op 0x05 (R407) -/
  | readResult
  /-- READ_STATUS, op 0x06 (R408) -/
  | readStatus
  /-- INJECT_ENV, op 0x07, `P` = the f32 envelope (R409) -/
  | injectEnv (p : F32)
  /-- INJECT_TRANSITION, op 0x08, `F` = finished_state, `P` = the f32 duration in ms (R412) -/
  | injectTransition (f : Bool) (p : F32)
  /-- SET_TARGET_FREQ, op 0x09, `P` = the f32 frequency in Hz (R413) -/
  | setTargetFreq (p : F32)
  /-- BIQUAD_STEP, id 0x80 (R504) -/
  | biquadStep
  /-- LPF_CASCADE_STEP, id 0x81 (R505) -/
  | lpfCascadeStep
  /-- LO_GEN, id 0x82 (R601) -/
  | loGen
  /-- IQ_MIX, id 0x83 (R602) -/
  | iqMix
  /-- ENVELOPE, id 0x84 (R605) -/
  | envelope
  /-- AFC_UPDATE, id 0x85 (R603, R604) -/
  | afcUpdate
  /-- PHASE_ADVANCE, id 0x86 (R607) -/
  | phaseAdvance
  /-- SDR_RETUNE, id 0x87 (R608) -/
  | sdrRetune
  /-- SDR_STEP, id 0x88 (R600) -/
  | sdrStep
  /-- LPF_DESIGN, id 0x89 (R503) -/
  | lpfDesign
  /-- MON_ENQUEUE, id 0x90 (R410) -/
  | monEnqueue
  /-- MON_DEQUEUE, id 0x91 (R701) -/
  | monDequeue
  /-- MON_TICK, id 0x92 (R711) -/
  | monTick
  /-- WELCH_PSD, id 0x93 (R704) -/
  | welchPsd
  /-- NOISE_FLOOR, id 0x94 (R705) -/
  | noiseFloor
  /-- PEAK_SEARCH, id 0x95 (R706) -/
  | peakSearch
  /-- PARABOLIC_REFINE, id 0x96 (R707) -/
  | parabolicRefine
  /-- ACCEPT_AND_SMOOTH, id 0x97 (R709, R710) -/
  | acceptAndSmooth
  /-- FREQ_POLL, id 0x98 (R411) -/
  | freqPoll
  /-- HIST_PUSH, id 0xA0 (R800) -/
  | histPush
  /-- HIST_SUGGEST, id 0xA1 (R802) -/
  | histSuggest
  /-- PCT_TO_HL, id 0xA2 (R803) -/
  | pctToHl
  /-- ATH_UPDATE, id 0xA3 (R804) -/
  | athUpdate
  /-- SCHMITT_RAW, id 0xB0 (R901) -/
  | schmittRaw
  /-- DEBOUNCE_STEP, id 0xB1 (R902) -/
  | debounceStep
  /-- TRIG_STEP, id 0xB2 (R903) -/
  | trigStep
  /-- SYM_GAP_END, id 0xC0 (R1001) -/
  | symGapEnd
  /-- SYM_MARK_END, id 0xC1 (R1002) -/
  | symMarkEnd
  /-- SYM_FLUSH, id 0xC2 (R1006) -/
  | symFlush
  /-- WPM_UPDATE, id 0xC3 (R1007, R1008) -/
  | wpmUpdate
  /-- STATS_PUSH, id 0xC4 (R1009) -/
  | statsPush
  /-- STATS_ANALYZE, id 0xC5 (R1010) -/
  | statsAnalyze
  /-- SETTLE_MARK, id 0xC6 (R1003) -/
  | settleMark
  /-- SETTLE_GAP, id 0xC7 (R1004) -/
  | settleGap
  /-- BEAM_STEP, id 0xD0 (R1101) -/
  | beamStep
  /-- EMISSION_SCORE, id 0xD1 (R1103) -/
  | emissionScore
  /-- LM_GET, id 0xD2 (R1109) -/
  | lmGet
  /-- BEAM_PRUNE, id 0xD3 (R1105) -/
  | beamPrune
  /-- BEAM_INJECT_SPACE, id 0xD4 (R1106) -/
  | beamInjectSpace
  /-- BEAM_GET_RESULT, id 0xD5 (R1107) -/
  | beamGetResult
  /-- LM_LOAD, id 0xD6 (R1108) -/
  | lmLoad
  /-- EMIT_TEXT, id 0xE0 (R420) -/
  | emitText
  /-- ENV_STAGE, id 0xE1 (R403) -/
  | envStage
  /-- SYMBOL_STAGE, id 0xE2 (R414) -/
  | symbolStage
deriving DecidableEq, Repr

end Sys2Proof
end

