-- ==== Sys2Proof/WellFormed.lean ====
section
/-! DEFINITION. Which command words are legal: the five checks of spec/30_encoding.md R304 and R305 on the
fields of a 64-bit word, each with the name of what it refuses, and the well-formedness of an
instruction. The types of `Instr`'s arguments already hold exactly what a word can carry, so an
instruction is well formed when the fields it stands for pass the checks. -/

namespace Sys2Proof

/-- The fields of a command word (R300). -/
structure CmdFields where
  /-- `op = W[63:56]` -/
  op : BitVec 8
  /-- `rsv = W[55:33]` -/
  rsv : BitVec 23
  /-- `F = W[32]` -/
  f : Bool
  /-- `P = W[31:0]` -/
  p : BitVec 32
deriving DecidableEq, Repr

/-- Why a word, or a micro-op id, is no instruction (R303, R305). -/
inductive DecodeError where
  /-- R305 (a): opcode 0x0A..0x7F, reserved for future host commands. -/
  | reservedOpcode
  /-- R305 (b): opcode 0x80..0xFF, the micro-op id space. -/
  | microOpSpace
  /-- R305 (c): a non-zero `rsv` field. -/
  | reservedField
  /-- R305 (d): a non-zero `F` on an opcode that does not use it. -/
  | flagNotUsed
  /-- R305 (e): a non-zero `P` on an opcode that does not use it. -/
  | payloadNotUsed
  /-- R303: an id of 0x80..0xFF with no micro-op, or below 0x80. -/
  | unassignedMicroOp
  /-- R211: fewer bytes than one command. -/
  | partialWord
deriving DecidableEq, Repr

/-- The opcodes that use `F` (R302). -/
def opUsesFlag (op : BitVec 8) : Bool := op == 0x08#8

/-- The opcodes that use `P` (R302). -/
def opUsesPayload (op : BitVec 8) : Bool :=
  op == 0x01#8 || op == 0x07#8 || op == 0x08#8 || op == 0x09#8

/-- The checks of R304 in its order; `none` when the word is legal. -/
def CmdFields.check (c : CmdFields) : Option DecodeError :=
  if 0x80 ≤ c.op.toNat then some .microOpSpace
  else if 0x0A ≤ c.op.toNat then some .reservedOpcode
  else if c.rsv ≠ 0 then some .reservedField
  else if c.f && !opUsesFlag c.op then some .flagNotUsed
  else if c.p ≠ 0 && !opUsesPayload c.op then some .payloadNotUsed
  else none

/-- The fields of a host command's word (R302); a micro-op has none. -/
def Instr.fields : Instr → Option CmdFields
  | .nop => some ⟨0x00, 0, false, 0⟩
  | .sample p => some ⟨0x01, 0, false, p⟩
  | .chunkEnd => some ⟨0x02, 0, false, 0⟩
  | .flush => some ⟨0x03, 0, false, 0⟩
  | .reset => some ⟨0x04, 0, false, 0⟩
  | .readResult => some ⟨0x05, 0, false, 0⟩
  | .readStatus => some ⟨0x06, 0, false, 0⟩
  | .injectEnv p => some ⟨0x07, 0, false, p⟩
  | .injectTransition f p => some ⟨0x08, 0, f, p⟩
  | .setTargetFreq p => some ⟨0x09, 0, false, p⟩
  | .biquadStep => none
  | .lpfCascadeStep => none
  | .loGen => none
  | .iqMix => none
  | .envelope => none
  | .afcUpdate => none
  | .phaseAdvance => none
  | .sdrRetune => none
  | .sdrStep => none
  | .lpfDesign => none
  | .monEnqueue => none
  | .monDequeue => none
  | .monTick => none
  | .welchPsd => none
  | .noiseFloor => none
  | .peakSearch => none
  | .parabolicRefine => none
  | .acceptAndSmooth => none
  | .freqPoll => none
  | .histPush => none
  | .histSuggest => none
  | .pctToHl => none
  | .athUpdate => none
  | .schmittRaw => none
  | .debounceStep => none
  | .trigStep => none
  | .symGapEnd => none
  | .symMarkEnd => none
  | .symFlush => none
  | .wpmUpdate => none
  | .statsPush => none
  | .statsAnalyze => none
  | .settleMark => none
  | .settleGap => none
  | .beamStep => none
  | .emissionScore => none
  | .lmGet => none
  | .beamPrune => none
  | .beamInjectSpace => none
  | .beamGetResult => none
  | .lmLoad => none
  | .emitText => none
  | .envStage => none
  | .symbolStage => none

/-- A host command whose fields pass the checks of R304, or a micro-op (which has no word). -/
def Instr.wf (i : Instr) : Bool :=
  match i.fields with
  | some c => c.check.isNone
  | none => true

end Sys2Proof
end

