-- ==== Sys2Proof/Decode.lean ====
section
/-! DEFINITION. From bits to instructions and back: the fields of a command word, the total decoder of
spec/30_encoding.md R304, the table of micro-op ids of R303, the byte order of
spec/20_memory.md R210, and the encoder. -/

namespace Sys2Proof

/-- The fields of the 64-bit word `W` (R300). -/
def CmdFields.ofWord (w : U64) : CmdFields :=
  { op := w.extractLsb' 56 8, rsv := w.extractLsb' 33 23, f := w.getLsbD 32, p := w.extractLsb' 0 32 }

/-- The 64-bit word with these fields (R300). -/
def CmdFields.toWord (c : CmdFields) : U64 := c.op ++ c.rsv ++ BitVec.ofBool c.f ++ c.p

/-- The command of a legal opcode 0x00..0x09 (R302). -/
def commandOf (op : BitVec 8) (f : Bool) (p : F32) : Option Instr :=
  match op.toNat with
  | 0x00 => some .nop
  | 0x01 => some (.sample p)
  | 0x02 => some .chunkEnd
  | 0x03 => some .flush
  | 0x04 => some .reset
  | 0x05 => some .readResult
  | 0x06 => some .readStatus
  | 0x07 => some (.injectEnv p)
  | 0x08 => some (.injectTransition f p)
  | 0x09 => some (.setTargetFreq p)
  | _ => none

/-- `decode(W)` (R304): a total function of the word, with the name of what makes a word ILLEGAL. -/
def decodeWord (w : U64) : Except DecodeError Instr :=
  let c := CmdFields.ofWord w
  match c.check with
  | some e => .error e
  | none =>
    match commandOf c.op c.f c.p with
    | some i => .ok i
    | none => .error .reservedOpcode

/-- The micro-op of an id (R303). -/
def decodeMicroOp (id : BitVec 8) : Except DecodeError Instr :=
  match id.toNat with
  | 0x80 => .ok .biquadStep
  | 0x81 => .ok .lpfCascadeStep
  | 0x82 => .ok .loGen
  | 0x83 => .ok .iqMix
  | 0x84 => .ok .envelope
  | 0x85 => .ok .afcUpdate
  | 0x86 => .ok .phaseAdvance
  | 0x87 => .ok .sdrRetune
  | 0x88 => .ok .sdrStep
  | 0x89 => .ok .lpfDesign
  | 0x90 => .ok .monEnqueue
  | 0x91 => .ok .monDequeue
  | 0x92 => .ok .monTick
  | 0x93 => .ok .welchPsd
  | 0x94 => .ok .noiseFloor
  | 0x95 => .ok .peakSearch
  | 0x96 => .ok .parabolicRefine
  | 0x97 => .ok .acceptAndSmooth
  | 0x98 => .ok .freqPoll
  | 0xA0 => .ok .histPush
  | 0xA1 => .ok .histSuggest
  | 0xA2 => .ok .pctToHl
  | 0xA3 => .ok .athUpdate
  | 0xB0 => .ok .schmittRaw
  | 0xB1 => .ok .debounceStep
  | 0xB2 => .ok .trigStep
  | 0xC0 => .ok .symGapEnd
  | 0xC1 => .ok .symMarkEnd
  | 0xC2 => .ok .symFlush
  | 0xC3 => .ok .wpmUpdate
  | 0xC4 => .ok .statsPush
  | 0xC5 => .ok .statsAnalyze
  | 0xC6 => .ok .settleMark
  | 0xC7 => .ok .settleGap
  | 0xD0 => .ok .beamStep
  | 0xD1 => .ok .emissionScore
  | 0xD2 => .ok .lmGet
  | 0xD3 => .ok .beamPrune
  | 0xD4 => .ok .beamInjectSpace
  | 0xD5 => .ok .beamGetResult
  | 0xD6 => .ok .lmLoad
  | 0xE0 => .ok .emitText
  | 0xE1 => .ok .envStage
  | 0xE2 => .ok .symbolStage
  | _ => .error .unassignedMicroOp

/-- The word whose least significant byte is first (R210). -/
def wordOfBytes : List Byte → Nat
  | [] => 0
  | b :: bs => b.toNat + 256 * wordOfBytes bs

/-- The `n` bytes of a number, least significant first: byte i is `W[8i+7:8i]` (R210). -/
def bytesOfNat : Nat → Nat → List Byte
  | 0, _ => []
  | n + 1, w => BitVec.ofNat 8 w :: bytesOfNat n (w / 256)

/-- The 8 bytes of a command word, in stream order (R210). -/
def wordBytes (w : U64) : List Byte := bytesOfNat 8 w.toNat

/-- The first whole word of the bytes on the port and the bytes after it; none while fewer than 8 bytes
are held (R211). -/
def takeWord (bs : List Byte) : Option (U64 × List Byte) :=
  if 8 ≤ bs.length then some (BitVec.ofNat 64 (wordOfBytes (bs.take 8)), bs.drop 8) else none

/-- Decoding the command stream: the first command and the bytes after it (R210, R211, R304). -/
def decodeStream (bs : List Byte) : Except DecodeError (Instr × List Byte) :=
  match takeWord bs with
  | none => .error .partialWord
  | some (w, rest) =>
    match decodeWord w with
    | .ok i => .ok (i, rest)
    | .error e => .error e

/-- The id of a micro-op (R303); a host command has none. -/
def Instr.microOpId : Instr → Option (BitVec 8)
  | .nop => none
  | .sample _ => none
  | .chunkEnd => none
  | .flush => none
  | .reset => none
  | .readResult => none
  | .readStatus => none
  | .injectEnv _ => none
  | .injectTransition _ _ => none
  | .setTargetFreq _ => none
  | .biquadStep => some 0x80
  | .lpfCascadeStep => some 0x81
  | .loGen => some 0x82
  | .iqMix => some 0x83
  | .envelope => some 0x84
  | .afcUpdate => some 0x85
  | .phaseAdvance => some 0x86
  | .sdrRetune => some 0x87
  | .sdrStep => some 0x88
  | .lpfDesign => some 0x89
  | .monEnqueue => some 0x90
  | .monDequeue => some 0x91
  | .monTick => some 0x92
  | .welchPsd => some 0x93
  | .noiseFloor => some 0x94
  | .peakSearch => some 0x95
  | .parabolicRefine => some 0x96
  | .acceptAndSmooth => some 0x97
  | .freqPoll => some 0x98
  | .histPush => some 0xA0
  | .histSuggest => some 0xA1
  | .pctToHl => some 0xA2
  | .athUpdate => some 0xA3
  | .schmittRaw => some 0xB0
  | .debounceStep => some 0xB1
  | .trigStep => some 0xB2
  | .symGapEnd => some 0xC0
  | .symMarkEnd => some 0xC1
  | .symFlush => some 0xC2
  | .wpmUpdate => some 0xC3
  | .statsPush => some 0xC4
  | .statsAnalyze => some 0xC5
  | .settleMark => some 0xC6
  | .settleGap => some 0xC7
  | .beamStep => some 0xD0
  | .emissionScore => some 0xD1
  | .lmGet => some 0xD2
  | .beamPrune => some 0xD3
  | .beamInjectSpace => some 0xD4
  | .beamGetResult => some 0xD5
  | .lmLoad => some 0xD6
  | .emitText => some 0xE0
  | .envStage => some 0xE1
  | .symbolStage => some 0xE2

/-- How an instruction is written down: a command as its 64-bit word, a micro-op as its 8-bit id. -/
inductive Encoding where
  /-- A host command word (R300). -/
  | command (w : U64)
  /-- A micro-op id (R303). -/
  | microOp (id : BitVec 8)
deriving DecidableEq, Repr

/-- The encoder: the word of a host command (R302), the id of a micro-op (R303). -/
def encode (i : Instr) : Encoding :=
  match i.fields with
  | some c => .command c.toWord
  | none => .microOp (i.microOpId.getD 0)

/-- The decoder on either kind of encoding. -/
def decode : Encoding → Except DecodeError Instr
  | .command w => decodeWord w
  | .microOp id => decodeMicroOp id

/-- The bytes of an encoding, in the order they are sent (R210). -/
def encodeBytes (i : Instr) : List Byte :=
  match encode i with
  | .command w => wordBytes w
  | .microOp id => [id]

/-- The pseudo-command `PUSH x0, ..., x(n-1)`: one SAMPLE for each payload, then CHUNK_END (R310). -/
def pushCommands (xs : List F32) : List Instr := xs.map .sample ++ [.chunkEnd]

/-- What the decoder reads from an opcode-table row's bits: a row of at most 8 bits is a micro-op id
(R303), a wider row is a command word sent as 8 little-endian bytes (R210). -/
def decodeTableWord (nbits w : Nat) : Option Instr :=
  if nbits ≤ 8 then
    match decodeMicroOp (BitVec.ofNat 8 w) with
    | .ok i => some i
    | .error _ => none
  else
    match decodeStream (bytesOfNat 8 w) with
    | .ok (i, _) => some i
    | .error _ => none

end Sys2Proof
end

