-- ==== Sys2Proof/Machine/FloatBits.lean ====
section
/-! DEFINITION. Reading a binary64 pattern: sign, magnitude, the classes NaN, infinite and finite, the
IEEE-754 comparisons, and the constants that the rules name (spec/00_scope.md R7, R8, R9, R13).
`Sys2Proof/Laws/Constants.lean` proves of each decimal constant that it is the binary64 number
nearest to the decimal the rule prints. -/

namespace Sys2Proof

/-- The sign bit. -/
def F64.sign (x : F64) : Bool := decide (2 ^ 63 ≤ x.bits.toNat)

/-- The 63 bits below the sign: exponent field and fraction. It orders the magnitudes of all
non-NaN numbers. -/
def F64.mag (x : F64) : Nat := x.bits.toNat % 2 ^ 63

/-- The magnitude of an infinity. -/
def F64.infMag : Nat := 0x7FF0000000000000

/-- The number with this sign and this magnitude pattern. -/
def F64.ofSignMag (neg : Bool) (m : Nat) : F64 :=
  ⟨BitVec.ofNat 64 (cond neg (2 ^ 63 + m) m)⟩

/-- NaN (any payload). -/
def F64.isNaN (x : F64) : Bool := decide (F64.infMag < x.mag)

/-- Plus or minus infinity. -/
def F64.isInf (x : F64) : Bool := decide (x.mag = F64.infMag)

/-- Finite: neither NaN nor infinite. -/
def F64.isFinite (x : F64) : Bool := decide (x.mag < F64.infMag)

/-- Plus or minus zero. -/
def F64.isZero (x : F64) : Bool := decide (x.mag = 0)

/-- A signed key that orders the non-NaN numbers as IEEE-754 does; both zeros have key 0. -/
def F64.key (x : F64) : Int := cond x.sign (-(x.mag : Int)) (x.mag : Int)

/-- The IEEE-754 comparison `a < b` (false when an operand is NaN) (R9). -/
def F64.lt (a b : F64) : Bool := !a.isNaN && !b.isNaN && decide (a.key < b.key)

/-- The IEEE-754 comparison `a <= b` (false when an operand is NaN) (R9). -/
def F64.le (a b : F64) : Bool := !a.isNaN && !b.isNaN && decide (a.key ≤ b.key)

/-- The IEEE-754 comparison `a = b`: the two zeros are equal, NaN equals nothing (R9). -/
def F64.feq (a b : F64) : Bool := !a.isNaN && !b.isNaN && decide (a.key = b.key)

/-- A non-negative exponent step below: |x| in units of 2^-1074, for finite `x`. -/
def F64.units (x : F64) : Nat :=
  let e := x.mag / 2 ^ 52
  let f := x.mag % 2 ^ 52
  if e = 0 then f else (2 ^ 52 + f) * 2 ^ (e - 1)

/-- The value of a finite number as a signed integer in units of 2^-1074. -/
def F64.toInt (x : F64) : Int := cond x.sign (-(x.units : Int)) (x.units : Int)

/-! Constants. -/

def F64.zero : F64 := ⟨0x0000000000000000#64⟩
def F64.one : F64 := ⟨0x3FF0000000000000#64⟩
def F64.negOne : F64 := ⟨0xBFF0000000000000#64⟩
def F64.two : F64 := ⟨0x4000000000000000#64⟩
def F64.three : F64 := ⟨0x4008000000000000#64⟩
def F64.five : F64 := ⟨0x4014000000000000#64⟩
def F64.nine : F64 := ⟨0x4022000000000000#64⟩
def F64.ten : F64 := ⟨0x4024000000000000#64⟩
def F64.twelve : F64 := ⟨0x4028000000000000#64⟩
def F64.twenty : F64 := ⟨0x4034000000000000#64⟩
def F64.thirty : F64 := ⟨0x403E000000000000#64⟩
def F64.sixty : F64 := ⟨0x404E000000000000#64⟩
def F64.hundred : F64 := ⟨0x4059000000000000#64⟩
def F64.oneTwenty : F64 := ⟨0x405E000000000000#64⟩
def F64.twoHundred : F64 := ⟨0x4069000000000000#64⟩
def F64.thousand : F64 := ⟨0x408F400000000000#64⟩
def F64.twelveHundred : F64 := ⟨0x4092C00000000000#64⟩
/-- 768000.0, the highest admitted sample rate (R7). -/
def F64.maxRate : F64 := ⟨0x4127700000000000#64⟩
/-- 0.5 -/
def F64.half : F64 := ⟨0x3FE0000000000000#64⟩
/-- 0.25 -/
def F64.quarter : F64 := ⟨0x3FD0000000000000#64⟩
/-- 0.75 -/
def F64.threeQuarters : F64 := ⟨0x3FE8000000000000#64⟩
/-- 1.5 -/
def F64.oneAndHalf : F64 := ⟨0x3FF8000000000000#64⟩
/-- 2.5 -/
def F64.twoAndHalf : F64 := ⟨0x4004000000000000#64⟩
/-- 2.2 -/
def F64.twoPointTwo : F64 := ⟨0x400199999999999A#64⟩
/-- 0.1 -/
def F64.tenth : F64 := ⟨0x3FB999999999999A#64⟩
/-- 0.2 -/
def F64.fifth : F64 := ⟨0x3FC999999999999A#64⟩
/-- 0.4 -/
def F64.twoFifths : F64 := ⟨0x3FD999999999999A#64⟩
/-- 0.05 -/
def F64.twentieth : F64 := ⟨0x3FA999999999999A#64⟩
/-- 0.95 -/
def F64.p95 : F64 := ⟨0x3FEE666666666666#64⟩
/-- 0.499 -/
def F64.nyquistFrac : F64 := ⟨0x3FDFEF9DB22D0E56#64⟩
/-- 0.9995 -/
def F64.decay9995 : F64 := ⟨0x3FEFFBE76C8B4396#64⟩
/-- 0.005 -/
def F64.fiveThousandths : F64 := ⟨0x3F747AE147AE147B#64⟩
/-- 0.001 -/
def F64.thousandth : F64 := ⟨0x3F50624DD2F1A9FC#64⟩
/-- 2e-4 -/
def F64.twoTenThousandths : F64 := ⟨0x3F2A36E2EB1C432D#64⟩
/-- 1e-6 -/
def F64.millionth : F64 := ⟨0x3EB0C6F7A0B5ED8D#64⟩
/-- 1e-9 -/
def F64.billionth : F64 := ⟨0x3E112E0BE826D695#64⟩
/-- -50.0, the early-prune score (R8, R1101). -/
def F64.negFifty : F64 := ⟨0xC049000000000000#64⟩
/-- -1000.0, the mismatch score (R8, R1103). -/
def F64.negThousand : F64 := ⟨0xC08F400000000000#64⟩
/-- -13.815510557964274, the reference value of `log(1e-6)` that R1108 prints (log entry 34). -/
def F64.lmBound : F64 := ⟨0xC02BA18A998FFFA0#64⟩
/-- `PI64`, given by its encoding in R13. -/
def F64.pi : F64 := ⟨0x400921FB54442D18#64⟩
/-- `-PI64`. -/
def F64.negPi : F64 := ⟨0xC00921FB54442D18#64⟩
/-- `TWO_PI = 2.0 * PI64`, exact (R13). -/
def F64.twoPi : F64 := ⟨0x401921FB54442D18#64⟩

end Sys2Proof
end

