-- ==== Sys2Proof/Config.lean ====
section
/-! DEFINITION. What an implementation of the block fixes, and the values that the spec leaves open:
constants with no body, so that no proof can see them and a claim holds whatever they are.

* `Config.numerics`: the transcendental functions and the FFT power of spec/00_scope.md R14 and R15
  (spec/93_implementation_defined.md I5, I6), with the laws of R14 and nothing else.
* The free values: results on which the spec is silent. Each names its log entry under
  notes/assumptions/. -/

namespace Sys2Proof

/-- The functions `numerics.*` of R14 and R15: total functions, with the laws that R14 assumes of them
(DEDUCED, log entry 10: the laws are read on finite operands, and "increasing" as non-decreasing,
since neighbouring numbers may round to one logarithm). The values given by `:=` only show that such
functions exist; `Config.numerics` is opaque, so nothing evaluates to them. -/
structure Numerics where
  /-- `cos64` -/
  cos : F64 → F64 := fun _ => F64.zero
  /-- `sin64` -/
  sin : F64 → F64 := fun _ => F64.zero
  /-- `tan64` -/
  tan : F64 → F64 := fun _ => F64.zero
  /-- `atan2_64(y, x)` -/
  atan2 : F64 → F64 → F64 := fun _ _ => F64.zero
  /-- `log64`, the natural logarithm -/
  log : F64 → F64 := fun _ => F64.zero
  /-- `log10_64` -/
  log10 : F64 → F64 := fun _ => F64.zero
  /-- `numerics.fft_power(v)[k]`: the power of bin `k` of the transform of `v` (R15); it depends on `v`
  alone. -/
  fftPower : List F64 → Nat → F64 := fun _ _ => F64.zero
  /-- `cos64` lies in [-1, 1]. -/
  cos_range : ∀ x, x.isFinite = true →
    F64.le F64.negOne (cos x) = true ∧ F64.le (cos x) F64.one = true := by intros; decide
  /-- `sin64` lies in [-1, 1]. -/
  sin_range : ∀ x, x.isFinite = true →
    F64.le F64.negOne (sin x) = true ∧ F64.le (sin x) F64.one = true := by intros; decide
  /-- `atan2_64` lies in [-PI64, PI64]. -/
  atan2_range : ∀ y x, y.isFinite = true → x.isFinite = true →
    F64.le F64.negPi (atan2 y x) = true ∧ F64.le (atan2 y x) F64.pi = true := by intros; decide
  /-- `log64` is increasing on positive inputs. -/
  log_mono : ∀ x y, F64.lt F64.zero x = true → F64.le x y = true → y.isFinite = true →
    F64.le (log x) (log y) = true := by intros; decide
  /-- `log10_64` is increasing on positive inputs. -/
  log10_mono : ∀ x y, F64.lt F64.zero x = true → F64.le x y = true → y.isFinite = true →
    F64.le (log10 x) (log10 y) = true := by intros; decide
deriving Inhabited

/-- The implementation's numerics: any functions that obey the laws (R14, R15, D5, D6). -/
opaque Config.numerics : Numerics

/-- Free value (log entry 12): the sign of a NaN result, by the operands. -/
opaque Config.nanSign : F64 → F64 → Bool

/-- Free value (log entry 12): the payload of a NaN result, by the operands. -/
opaque Config.nanPayload : F64 → F64 → BitVec 51

/-- Free value (log entry 13): `min(a, b)` where an operand is NaN (R13 does not state it). -/
opaque Config.minOpen : F64 → F64 → F64

/-- Free value (log entry 13): `max(a, b)` where an operand is NaN (R13 does not state it). -/
opaque Config.maxOpen : F64 → F64 → F64

/-- Free value (log entry 13): whether `min` of two zeros of unlike sign is its first operand. -/
opaque Config.minFirst : F64 → F64 → Bool

/-- Free value (log entry 13): whether `max` of two zeros of unlike sign is its first operand. -/
opaque Config.maxFirst : F64 → F64 → Bool

/-- Free value (log entry 14): whether a sort places its first operand strictly before its second when
one of them is NaN (R16 does not state it). -/
opaque Config.nanBefore : F64 → F64 → Bool

/-- Free value (log entry 15): `floor(v)` where `v` is not a finite non-negative number (R19 does not
state it). -/
opaque Config.floorOpen : F64 → Nat

/-- Free value (log entry 16): `mon_since_tick` after an addition that passes 2^64 - 1 (R1208 does not
settle that counter). -/
opaque Config.sinceTickOpen : U64 → Nat → U64

/-- Free value (log entry 17): element `i` of an array that has no element `i`. -/
opaque Config.arrayOpen : List F64 → Nat → F64

/-- Free value (log entry 17): the best sentence of a beam that holds no path (R170 excludes it). -/
opaque Config.noPathText : Text

end Sys2Proof
end

