-- ==== Sys2Proof/Machine/Float64.lean ====
section
/-! DEFINITION. IEEE-754 binary64 arithmetic in round-to-nearest-even, one rounding per operation, none
fused (spec/00_scope.md R9, D4), the helpers of R13, `sqrt64` of R14, the conversions of R10 and R19,
and the sort orders of R16. Every result is computed exactly as a rational number in units of 2^-1074
and then rounded once by `roundQ`. The operations
are irreducible for the elaborator, so that proofs treat them as symbols; `unfold` and the kernel see
their bodies. -/

namespace Sys2Proof

/-- The binary64 number nearest to `num / den` units of 2^-1074, ties to even, with the given sign;
beyond the largest finite number, infinity (IEEE-754 round-to-nearest-even, R9). `sh` is the number of
low bits that do not fit in 53 bits; the encoding of `q * 2^sh` units is `sh * 2^52 + q`. -/
@[irreducible] def F64.roundQ (neg : Bool) (num den : Nat) : F64 :=
  let q0 := num / den
  let sh := if q0 = 0 then 0 else Nat.log2 q0 - 52
  let d := den * 2 ^ sh
  let q := num / d
  let r := num % d
  let up := if d < 2 * r ∨ (2 * r = d ∧ q % 2 = 1) then 1 else 0
  F64.ofSignMag neg (min (sh * 2 ^ 52 + q + up) F64.infMag)

/-- A quiet NaN whose sign and payload are free values (log entry 12). -/
def F64.nan (a b : F64) : F64 :=
  F64.ofSignMag (Config.nanSign a b) (0x7FF8000000000000 + (Config.nanPayload a b).toNat)

/-- Infinity with this sign. -/
def F64.inf (neg : Bool) : F64 := F64.ofSignMag neg F64.infMag

/-- `-x`: the sign bit is flipped. -/
def F64.neg (x : F64) : F64 := F64.ofSignMag (!x.sign) x.mag

/-- `abs(x)` (R13). -/
def F64.abs (x : F64) : F64 := F64.ofSignMag false x.mag

/-- A signed exact sum, rounded. The zero of an exact sum 0 is negative only when both operands are. -/
def F64.roundInt (bothNeg : Bool) (v : Int) : F64 :=
  if v = 0 then F64.ofSignMag bothNeg 0 else F64.roundQ (decide (v < 0)) v.natAbs 1

/-- `a + b` (R9). -/
@[irreducible] def F64.add (a b : F64) : F64 :=
  if a.isNaN || b.isNaN then F64.nan a b
  else if a.isInf then
    if b.isInf && (a.sign != b.sign) then F64.nan a b else a
  else if b.isInf then b
  else F64.roundInt (a.sign && b.sign) (a.toInt + b.toInt)

/-- `a - b` (R9). -/
def F64.sub (a b : F64) : F64 := a.add b.neg

/-- `a * b` (R9). -/
@[irreducible] def F64.mul (a b : F64) : F64 :=
  let s := a.sign != b.sign
  if a.isNaN || b.isNaN then F64.nan a b
  else if a.isInf || b.isInf then
    if a.isZero || b.isZero then F64.nan a b else F64.inf s
  else F64.roundQ s (a.units * b.units) (2 ^ 1074)

/-- `a / b` (R9). -/
@[irreducible] def F64.div (a b : F64) : F64 :=
  let s := a.sign != b.sign
  if a.isNaN || b.isNaN then F64.nan a b
  else if a.isInf then (if b.isInf then F64.nan a b else F64.inf s)
  else if b.isInf then F64.ofSignMag s 0
  else if b.isZero then (if a.isZero then F64.nan a b else F64.inf s)
  else F64.roundQ s (a.units * 2 ^ 1074) b.units

/-- Newton's iteration for the integer square root, from a guess that is not below it. -/
def F64.isqrtIter (n : Nat) : Nat → Nat → Nat
  | 0, g => g
  | fuel + 1, g =>
    let next := (g + n / g) / 2
    if next < g then F64.isqrtIter n fuel next else g

/-- The integer square root: the greatest `r` with `r * r <= n`. -/
def F64.isqrt (n : Nat) : Nat :=
  if n = 0 then 0 else F64.isqrtIter n (Nat.log2 n + 2) (2 ^ (Nat.log2 n / 2 + 1))

/-- `sqrt64`: the IEEE-754 correctly rounded square root (R14). -/
@[irreducible] def F64.sqrt (x : F64) : F64 :=
  if x.isNaN then F64.nan x x
  else if x.isZero then x
  else if x.sign then F64.nan x x
  else if x.isInf then x
  else
    let n := x.units * 2 ^ 1074
    let q0 := F64.isqrt n
    let sh := Nat.log2 q0 - 52
    let q := q0 / 2 ^ sh
    let mid := (2 * q + 1) * (2 * q + 1) * 4 ^ sh
    let up := if mid < 4 * n ∨ (mid = 4 * n ∧ q % 2 = 1) then 1 else 0
    F64.ofSignMag false (sh * 2 ^ 52 + q + up)

/-- `fmod(a, b)`: the exact remainder of the truncated quotient, with the sign of `a` (R13). -/
@[irreducible] def F64.fmod (a b : F64) : F64 :=
  if a.isNaN || b.isNaN || a.isInf || b.isZero then F64.nan a b
  else if b.isInf then a
  else F64.roundQ a.sign (a.units % b.units) 1

/-- `to_f64(n)` of an unsigned integer: the nearest f64, ties to even (R19). -/
@[irreducible] def F64.ofNat (n : Nat) : F64 := F64.roundQ false (n * 2 ^ 1074) 1

/-- `to_f64(x)` of a binary32 pattern, exact (R10, R301). -/
@[irreducible] def F64.ofF32 (p : F32) : F64 :=
  let s := decide (2 ^ 31 ≤ p.toNat)
  let e := p.toNat / 2 ^ 23 % 2 ^ 8
  let f := p.toNat % 2 ^ 23
  if e = 255 then F64.ofSignMag s (F64.infMag + f * 2 ^ 29)
  else F64.roundQ s ((if e = 0 then f else (2 ^ 23 + f) * 2 ^ (e - 1)) * 2 ^ 925) 1

/-- `floor(v)` of a non-negative finite number: the integer it names, of any size (R13, R19); elsewhere
a free value (log entry 15). -/
@[irreducible] def F64.floor (x : F64) : Nat :=
  if x.isFinite && (!x.sign || x.isZero) then x.units / 2 ^ 1074 else Config.floorOpen x

/-- `min(a, b)` (R13). Of two zeros of unlike sign it is either one; with a NaN operand, a free value
(log entry 13). -/
@[irreducible] def F64.min (a b : F64) : F64 :=
  if a.isNaN || b.isNaN then Config.minOpen a b
  else if a.lt b then a else if b.lt a then b else if a = b then a
  else cond (Config.minFirst a b) a b

/-- `max(a, b)` (R13). Of two zeros of unlike sign it is either one; with a NaN operand, a free value
(log entry 13). -/
@[irreducible] def F64.max (a b : F64) : F64 :=
  if a.isNaN || b.isNaN then Config.maxOpen a b
  else if a.lt b then b else if b.lt a then a else if a = b then a
  else cond (Config.maxFirst a b) a b

/-- `clamp(v, lo, hi) = min(max(v, lo), hi)` (R13). -/
def F64.clamp (v lo hi : F64) : F64 := (v.max lo).min hi

/-- Whether a sort in non-decreasing order places `a` strictly before `b` (R16); with a NaN operand, a
free value (log entry 14). -/
def F64.before (a b : F64) : Bool :=
  if a.isNaN || b.isNaN then Config.nanBefore a b else a.lt b

/-- `sort_asc(v)`: the values in non-decreasing order (R16). -/
def sortAsc (v : List F64) : List F64 := v.insertionSort (fun a b => F64.before b a = false)

/-- `A[i]` (R11); where the array has no element `i`, a free value (log entry 17). -/
def elemAt (v : List F64) (i : Nat) : F64 := v[i]?.getD (Config.arrayOpen v i)

/-- A sum taken left to right from 0.0 (R9, R1010). -/
def sumLeft (v : List F64) : F64 := v.foldl F64.add F64.zero

/-- `PI64`-based phase constant `(TWO_PI * f) / fs` (R122, R604, R606, R608). -/
def phaseIncOf (f fs : F64) : F64 := (F64.twoPi.mul f).div fs

end Sys2Proof
end

