-- ==== Sys2Proof/Machine/State.lean ====
section
/-! DEFINITION. The state of the block: every element that spec/10_state.md names (R100 to R186), the ports
of spec/20_memory.md R210, R211 and spec/30_encoding.md R307, R308, and the model's own fields (marked
so). Plain data throughout. Then the state at power-on, the faults and the refusals. -/

namespace Sys2Proof.Machine

/-- The lifecycle register `S.life` (R100). -/
inductive Life where
  | unconfigured
  | running
  | flushed
  | faulted
deriving DecidableEq, Repr

/-- The fault causes of R1214. -/
inductive FaultCode where
  /-- 0x01 (R1201) -/
  | cfgFilterOrder
  /-- 0x02 (R1202) -/
  | cfgSampleRate
  /-- 0x03 (R1203) -/
  | cfgLmInvalid
  /-- 0x04 (R1204) -/
  | cfgParam
  /-- 0x10 (R1205) -/
  | cmdIllegal
  /-- 0x11 (R1206) -/
  | cmdState
  /-- 0x12 (R1207) -/
  | inputRange
  /-- 0x13 (R1208) -/
  | counterOverflow
deriving DecidableEq, Repr

/-- `cfg.threshold_strategy` (R805). -/
inductive Strategy where
  | percentile
  | adaptive
deriving DecidableEq, Repr

/-- `monitor_schedule`, a parameter of the model (R421). -/
inductive Schedule where
  | free
  | reference
deriving DecidableEq, Repr

/-- The two filter branches `S.lpf_i`, `S.lpf_q` (R110). -/
inductive Branch where
  | i
  | q
deriving DecidableEq, Repr

/-- A language model as the map of maps given to RESET: string keys at both levels (R307, R1108). -/
abbrev LmRecord := List (Text × List (Text × F64))

/-- The loaded language model `S.lm`: a finite map from (prev, next), where prev is the empty string or
one character (R171); the accepted map of R1108, unchanged. -/
abbrev LangModel := LmRecord

/-- The configuration record `cfg` on the configuration input (R7, R307). An OPEN field is an `Option`:
`none` is a field with no value supplied (R1204). A field with a value in R7's table has it as its
default. The four fixed fields stand in the record because R103 gives one field to each row. -/
structure CfgRecord where
  fs : Option F64 := none
  targetFreqHz : Option F64 := none
  monitorEnabled : Option Bool := none
  fftSize : Nat := 4096
  /-- Not supplied: `N/2` (log entry 25). -/
  overlap : Option Nat := none
  updateIntervalMs : F64 := F64.twoHundred
  minFreqHz : Option F64 := none
  maxFreqHz : Option F64 := none
  requiredSnr : Option F64 := none
  alphaBase : Option F64 := none
  alphaGain : Option F64 := none
  alphaMax : Option F64 := none
  noiseFloorMin : F64 := F64.billionth
  peakPowerMin : F64 := F64.thousandth
  monQueueCapacity : Option Nat := none
  filterOrder : Nat := 4
  filterBwHz : F64 := F64.hundred
  afcEnabled : Option Bool := none
  afcGain : F64 := F64.twoTenThousandths
  afcGate : F64 := F64.fiveThousandths
  afcMinConsecutive : Nat := 5
  afcDeadbandHz : F64 := F64.two
  afcRangeHz : F64 := F64.hundred
  afcPolarity : F64 := F64.negOne
  retuneHysteresisHz : F64 := F64.five
  thresholdStrategy : Strategy := .percentile
  histDownsampleRate : F64 := F64.hundred
  histWindowSeconds : F64 := F64.thirty
  pctHystFrac : F64 := F64.twentieth
  athDecay : F64 := F64.decay9995
  athMinRange : Option F64 := none
  debounceMs : F64 := F64.twelve
  initialWpm : F64 := F64.twenty
  glitchThresholdMs : Option F64 := none
  charGapRatio : F64 := F64.twoAndHalf
  wordGapRatio : F64 := F64.five
  wpmUpdateAlpha : Option F64 := none
  statsWindowSize : Option Nat := none
  beamWidth : Nat := 20
  pruneThreshold : F64 := F64.ten
  lm : Option LmRecord := none
deriving DecidableEq, Repr

/-- The configuration register file `S.cfg` (R103): one register per row of R7 (the language model is
`S.lm`), then the registers derived at RESET (R1302). -/
structure Cfg where
  fs : F64
  targetFreqHz : F64
  monitorEnabled : Bool
  fftSize : Nat
  overlap : Nat
  updateIntervalMs : F64
  minFreqHz : F64
  maxFreqHz : F64
  requiredSnr : F64
  alphaBase : F64
  alphaGain : F64
  alphaMax : F64
  noiseFloorMin : F64
  peakPowerMin : F64
  monQueueCapacity : Nat
  filterOrder : Nat
  filterBwHz : F64
  afcEnabled : Bool
  afcGain : F64
  afcGate : F64
  afcMinConsecutive : Nat
  afcDeadbandHz : F64
  afcRangeHz : F64
  afcPolarity : F64
  retuneHysteresisHz : F64
  thresholdStrategy : Strategy
  histDownsampleRate : F64
  histWindowSeconds : F64
  pctHystFrac : F64
  athDecay : F64
  athMinRange : F64
  debounceMs : F64
  initialWpm : F64
  glitchThresholdMs : F64
  charGapRatio : F64
  wordGapRatio : F64
  wpmUpdateAlpha : F64
  statsWindowSize : Nat
  beamWidth : Nat
  pruneThreshold : F64
  /-- The row `lm` as it was supplied; `S.lm` is loaded from it by LM_LOAD (R171, R1108). -/
  lm : LmRecord
  /-- The cutoff after the Nyquist clamp (R500). -/
  fc : F64
  /-- `fft_size - overlap` -/
  hop : Nat
  /-- `fft_size + 3 * hop` (R701) -/
  monRingLen : Nat
  /-- R800 -/
  dsFactor : Nat
  /-- R801 -/
  histCapacity : Nat
  /-- `D`, not rounded (R900) -/
  debounceCount : F64
  /-- R712 -/
  tickSamples : Nat
deriving DecidableEq, Repr

/-- A ring of R203: its storage, write index and fill count. -/
structure Ring where
  buf : List F64
  wi : Nat
  fill : Nat
deriving DecidableEq, Repr

/-- One second-order section: five coefficients and two state variables (R110). -/
structure Biquad where
  b0 : F64
  b1 : F64
  b2 : F64
  a1 : F64
  a2 : F64
  s1 : F64
  s2 : F64
deriving DecidableEq, Repr

/-- The four advisory counters (R104, R1212). -/
structure Advisory where
  /-- `S.adv_chunk_dropped` -/
  chunkDropped : U64
  /-- `S.adv_unit_reset` -/
  unitReset : U64
  /-- `S.adv_decoder_starved` -/
  decoderStarved : U64
  /-- `S.adv_squelch` -/
  squelch : U64
deriving DecidableEq, Repr

/-- Demodulator state (R110, R120, R121, R122). -/
structure Demod where
  /-- `S.lpf_i` -/
  lpfI : List Biquad
  /-- `S.lpf_q` -/
  lpfQ : List Biquad
  /-- `S.phi` -/
  phi : F64
  /-- `S.f0` -/
  f0 : F64
  /-- `S.afc_prev_phase` -/
  afcPrevPhase : F64
  /-- `S.afc_count` -/
  afcCount : Nat
  /-- `S.afc_freq` -/
  afcFreq : F64
  /-- `S.afc_phase_inc` -/
  afcPhaseInc : F64
deriving DecidableEq, Repr

/-- The monitor agent's own state (R130, R131, R133, R220). -/
structure Monitor where
  /-- `S.mon_ring`, `S.mon_wi`, `S.mon_fill` -/
  ring : Ring
  /-- `S.mon_fsmooth` -/
  fsmooth : F64
  /-- `S.mon_locked` -/
  locked : Bool
  /-- `S.mon_since_tick` -/
  sinceTick : U64
deriving DecidableEq, Repr

/-- The hand-off between the agents (R132, R134, R135, R136). -/
structure Link where
  /-- `S.mon_queue`, oldest chunk first -/
  queue : List (List F64)
  /-- `S.chunk_acc`, oldest sample first -/
  chunkAcc : List F64
  /-- `S.freq_slot` -/
  freqSlot : Option F64
  /-- `S.mon_cancelled` -/
  cancelled : Bool
deriving DecidableEq, Repr

/-- Threshold state (R140, R141, R142). -/
structure Thresh where
  /-- `S.ds_count` -/
  dsCount : Nat
  /-- `S.hist`, `S.hist_wi`, `S.hist_fill` -/
  hist : Ring
  /-- `S.ath_max` -/
  athMax : F64
  /-- `S.ath_min` -/
  athMin : F64
  /-- `S.th_high` -/
  high : F64
  /-- `S.th_low` -/
  low : F64
deriving DecidableEq, Repr

/-- Trigger state (R150). -/
structure Trigger where
  /-- `S.current_state`: true = mark, false = space -/
  current : Bool
  /-- `S.state_start_sample` -/
  stateStart : U64
  /-- `S.total_samples` -/
  total : U64
  /-- `S.pending` -/
  pending : Bool
  /-- `S.change_start_sample` -/
  changeStart : U64
deriving DecidableEq, Repr

/-- Symbol-buffer and analyzer state (R160, R162). -/
structure Symbols where
  /-- `S.pending_mark_ms` -/
  pendingMarkMs : F64
  /-- `S.last_gap_ms` -/
  lastGapMs : F64
  /-- `S.unit_time_ms` -/
  unitTimeMs : F64
  /-- `S.pulse_buf`: marks at even, gaps at odd positions (R161) -/
  pulseBuf : List F64
  /-- `S.stats`, `S.stats_wi`, `S.stats_fill` -/
  stats : Ring
deriving DecidableEq, Repr

/-- A beam hypothesis (R170, R1100). -/
structure Path where
  sentence : Text
  lastChar : Option Char
  score : F64
deriving DecidableEq, Repr

/-- Decoder and output state (R170, R171, R180). -/
structure Decoder where
  /-- `S.paths` -/
  paths : List Path
  /-- `S.lm` -/
  lm : LangModel
  /-- `S.last_emitted` -/
  lastEmitted : Text
  /-- `S.out`: the fragments on the output port, oldest first -/
  out : List Text
deriving DecidableEq, Repr

/-- The state that just ended and its length (R18, R414). -/
structure Transition where
  finished : Bool
  durationMs : F64
deriving DecidableEq, Repr

/-- The record of STATS_ANALYZE (R1010). -/
structure Analysis where
  optimalThreshold : F64
  ditMean : F64
  ditStddev : F64
  dahMean : F64
  dahStddev : F64
  confidence : F64
deriving DecidableEq, Repr

/-- The record of HIST_SUGGEST (R802). -/
structure Suggestion where
  thr : F64
  peak : F64
  noise : F64
  squelch : Bool
deriving DecidableEq, Repr

/-- What the block puts on the response port (R308). -/
inductive Response where
  /-- The string of READ_RESULT (R407). -/
  | result (t : Text)
  /-- The six 64-bit words of READ_STATUS, word 0 first (R408, R1213). -/
  | status (words : List U64)
deriving DecidableEq, Repr

/-- Which step comes next (the model's own: the interleaving of R224 as plain data, log entry 9, and
the entry to a micro-op on its own, log entry 6). -/
inductive Turn where
  /-- One host command from the port. -/
  | command
  /-- The micro-op with this id: a monitor step MON_DEQUEUE (0x91) or MON_TICK (0x92) of the FREE
  schedule (R421), or another micro-op by itself (log entry 6). -/
  | microOp (id : BitVec 8)
deriving DecidableEq, Repr

/-- A step of an execution as R422 has it: the two agents of R220, with the monitor's two step kinds
(R421). -/
inductive ScheduleStep where
  /-- One host command (R400). -/
  | command
  /-- One MON_DEQUEUE (R701). -/
  | dequeue
  /-- One MON_TICK (R711). -/
  | tick
deriving DecidableEq, Repr

/-- The operands of a micro-op that runs by itself (the model's own, log entry 6). Each micro-op's
meaning says which it reads. -/
structure Operands where
  /-- The opcode of the host command whose rule invokes the micro-op: the info of a fault it raises. -/
  op : BitVec 8
  /-- The filter branch. -/
  branch : Branch
  /-- A section or bin number. -/
  index : Nat
  x : F64
  y : F64
  z : F64
  u : F64
  flag : Bool
  vec : List F64
  vec2 : List F64
  prev : Option Char
  next : Char
  cands : List Path
  lm : Option LmRecord
deriving DecidableEq, Repr

/-- The value that a micro-op run by itself returned last (the model's own, log entry 6; R12
`return v`). -/
inductive Ret where
  | none
  | num (v : F64)
  | pair (a b : F64)
  | bool (b : Bool)
  | vec (v : List F64)
  | bin (k : Option Nat)
  | freq (f : Option F64)
  | event (ev : Option Transition)
  | suggestion (r : Suggestion)
  | analysis (r : Option Analysis)
  | paths (ps : List Path)
  | text (t : Text)
deriving DecidableEq, Repr

/-- Parameters that the model takes (R421, R206, R207): `none` is an unbounded memory. No step changes
them. -/
structure ModelParams where
  schedule : Schedule
  chunkCapacity : Option Nat
  pulseBufCapacity : Option Nat
deriving DecidableEq, Repr

/-- The machine's state: the record `S` of spec/10_state.md, the ports, and the model's own fields. -/
structure State where
  /-- `S.life` (R100) -/
  life : Life
  /-- `S.pc` (R101) -/
  pc : U64
  /-- `S.fault_code` (R104) -/
  faultCode : BitVec 8
  /-- `S.fault_info` (R104) -/
  faultInfo : BitVec 32
  adv : Advisory
  cfg : Cfg
  demod : Demod
  mon : Monitor
  link : Link
  thr : Thresh
  trig : Trigger
  sym : Symbols
  dec : Decoder
  /-- The bytes on the command port, next byte first, from a word boundary (R210, R211). -/
  port : List Byte
  /-- The records on the configuration input, next record first (R307, log entry 4). -/
  cfgIn : List CfgRecord
  /-- The responses on the response port, oldest first (R308). -/
  resp : List Response
  /-- The model's own: the order of the next steps (log entry 9). -/
  turns : List Turn
  /-- The model's own: the operands of a micro-op run by itself (log entry 6). -/
  args : Operands
  /-- The model's own: its result (log entry 6). -/
  ret : Ret
  /-- The model's own: the parameters of R421, R206, R207. -/
  params : ModelParams
deriving DecidableEq, Repr

/-- The machine stops with a fault. None of the block's own faults is one of these: they are states
(R1209). -/
inductive Fault where
  /-- Raised by `step` alone, when the next turn names a micro-op id that R303 reserves: "Every id in
  0x80..0xFF not in this table is reserved", never executed (I16). Safe: no legal execution has such a
  turn. -/
  | unassignedMicroOp (id : BitVec 8)
deriving DecidableEq, Repr

/-- No meaning for the instruction. -/
inductive Refusal where
  /-- Raised by `exec` for an instruction that has no meaning yet. Safe: the model stops. No arm of
  `exec` answers it now. -/
  | notModelled (mnemonic : String)
deriving DecidableEq, Repr

/-- A ring with `c` elements 0.0 and nothing written (R1301). -/
def Ring.empty (c : Nat) : Ring := ⟨List.replicate c F64.zero, 0, 0⟩

/-- The initial path (R170, R1100). -/
def Path.initial : Path := ⟨[], none, F64.zero⟩

/-- `S.cfg` at power-on, where R1300 gives no value: the values of R7's table, OPEN fields 0 or false,
and the derived registers that the formulas of R1302 give for them (log entry 1, DESIGN CHOICE). -/
def Cfg.powerOn : Cfg :=
  { fs := F64.zero, targetFreqHz := F64.zero, monitorEnabled := false, fftSize := 4096,
    overlap := 2048, updateIntervalMs := F64.twoHundred, minFreqHz := F64.zero,
    maxFreqHz := F64.zero, requiredSnr := F64.zero, alphaBase := F64.zero, alphaGain := F64.zero,
    alphaMax := F64.zero, noiseFloorMin := F64.billionth, peakPowerMin := F64.thousandth,
    monQueueCapacity := 0, filterOrder := 4, filterBwHz := F64.hundred, afcEnabled := false,
    afcGain := F64.twoTenThousandths, afcGate := F64.fiveThousandths, afcMinConsecutive := 5,
    afcDeadbandHz := F64.two, afcRangeHz := F64.hundred, afcPolarity := F64.negOne,
    retuneHysteresisHz := F64.five, thresholdStrategy := .percentile,
    histDownsampleRate := F64.hundred, histWindowSeconds := F64.thirty,
    pctHystFrac := F64.twentieth, athDecay := F64.decay9995, athMinRange := F64.zero,
    debounceMs := F64.twelve, initialWpm := F64.twenty, glitchThresholdMs := F64.zero,
    charGapRatio := F64.twoAndHalf, wordGapRatio := F64.five, wpmUpdateAlpha := F64.zero,
    statsWindowSize := 0, beamWidth := 20, pruneThreshold := F64.ten, lm := [], fc := F64.zero, hop := 2048,
    monRingLen := 10240, dsFactor := 1, histCapacity := 3000, debounceCount := F64.zero,
    tickSamples := 1 }

/-- A section of zeros (log entry 1). -/
def Biquad.zero : Biquad :=
  ⟨F64.zero, F64.zero, F64.zero, F64.zero, F64.zero, F64.zero, F64.zero⟩

/-- The operand latch at power-on (log entry 6). -/
def Operands.empty : Operands :=
  { op := 0, branch := .i, index := 0, x := F64.zero, y := F64.zero, z := F64.zero, u := F64.zero,
    flag := false, vec := [], vec2 := [], prev := none, next := ' ', cands := [], lm := none }

/-- Power-on (R1300 (a)): `life`, `pc`, the fault registers and the advisory counters as the rule states
them; every other element at the value that log entry 1 names, which is R1301's value with the
record of `Cfg.powerOn`; the ports empty. -/
def State.reset : State :=
  { life := .unconfigured, pc := 0, faultCode := 0, faultInfo := 0, adv := ⟨0, 0, 0, 0⟩,
    cfg := Cfg.powerOn,
    demod := { lpfI := [Biquad.zero, Biquad.zero], lpfQ := [Biquad.zero, Biquad.zero],
               phi := F64.zero, f0 := F64.zero, afcPrevPhase := F64.zero, afcCount := 0,
               afcFreq := F64.zero, afcPhaseInc := F64.zero },
    mon := { ring := Ring.empty 10240, fsmooth := F64.zero, locked := false, sinceTick := 0 },
    link := { queue := [], chunkAcc := [], freqSlot := none, cancelled := false },
    thr := { dsCount := 0, hist := Ring.empty 3000, athMax := F64.zero, athMin := F64.zero,
             high := F64.ten, low := F64.nine },
    trig := { current := false, stateStart := 0, total := 0, pending := false, changeStart := 0 },
    sym := { pendingMarkMs := F64.zero, lastGapMs := F64.zero, unitTimeMs := F64.sixty,
             pulseBuf := [], stats := Ring.empty 0 },
    dec := { paths := [Path.initial], lm := [], lastEmitted := [], out := [] },
    port := [], cfgIn := [], resp := [], turns := [],
    args := Operands.empty, ret := .none,
    params := { schedule := .free, chunkCapacity := none, pulseBufCapacity := none } }

end Sys2Proof.Machine
end

