-- ==== Sys2Proof/Machine/Flags.lean ====
section
/-! DEFINITION. The conditions and status codes that the rules test and show: the admission table of
spec/40_pipeline_commands.md R400, the enabling of a monitor step (R421), the fault codes and infos of
spec/60_exceptions.md R1214, the status words of R1213, and the saturating count of R1208. The block
has no condition-code register (spec/10_state.md R185): its flags are state elements, written by the
rules that own them. -/

namespace Sys2Proof.Machine

/-- `ADMITTED[S.life]` of R400, by the command's opcode. -/
def admitted (l : Life) (op : BitVec 8) : Bool :=
  match l with
  | .unconfigured => op == 0x00#8 || op == 0x04#8 || op == 0x06#8
  | .running => decide (op.toNat ≤ 0x09)
  | .flushed => op == 0x00#8 || op == 0x04#8 || op == 0x05#8 || op == 0x06#8
  | .faulted => op == 0x00#8 || op == 0x04#8 || op == 0x06#8

/-- Whether the monitor agent may take a step of its own (R421): under FREE, RUNNING, enabled and not
cancelled. Under REFERENCE it runs only inside CHUNK_END. -/
def monitorEnabled (s : State) : Bool :=
  s.params.schedule == .free && s.life == .running && s.cfg.monitorEnabled && !s.link.cancelled

/-- The code of a fault (R1214). -/
def FaultCode.code : FaultCode → BitVec 8
  | .cfgFilterOrder => 0x01
  | .cfgSampleRate => 0x02
  | .cfgLmInvalid => 0x03
  | .cfgParam => 0x04
  | .cmdIllegal => 0x10
  | .cmdState => 0x11
  | .inputRange => 0x12
  | .counterOverflow => 0x13

/-- The info of a fault of the command with opcode `op`: 0 for RESET's validation, else the opcode byte
(R104, R1214). -/
def faultInfoOf (c : FaultCode) (op : BitVec 8) : BitVec 32 :=
  match c with
  | .cfgFilterOrder => 0
  | .cfgSampleRate => 0
  | .cfgLmInvalid => 0
  | .cfgParam => 0
  | .cmdIllegal => op.zeroExtend 32
  | .cmdState => op.zeroExtend 32
  | .inputRange => op.zeroExtend 32
  | .counterOverflow => op.zeroExtend 32

/-- The code of `S.life` in status word 0 (R1213). -/
def lifeCode : Life → BitVec 8
  | .unconfigured => 0
  | .running => 1
  | .flushed => 2
  | .faulted => 3

/-- The six words of READ_STATUS (R1213). -/
def statusWords (s : State) : List U64 :=
  [s.faultInfo ++ (0 : BitVec 16) ++ lifeCode s.life ++ s.faultCode,
   s.adv.chunkDropped, s.adv.unitReset, s.adv.decoderStarved, s.adv.squelch, s.pc]

/-- `+ 1`, stuck at 2^64 - 1 (R1208, I14). -/
def satInc (c : U64) : U64 := if c = BitVec.allOnes 64 then c else c + 1

end Sys2Proof.Machine
end

