-- ==== Sys2Proof/Machine/Ops.lean ====
section
/-! DEFINITION. The shared operations: the ring primitives of spec/20_memory.md R203, the advisory counts
of spec/60_exceptions.md R1212, taking a fault (R1209) and leaving the faulted state (R1210), the
acceptance of a command (spec/40_pipeline_commands.md R400), and the discarding of a held partial word
(spec/20_memory.md R211). -/

namespace Sys2Proof.Machine

/-! ## Rings (R203) -/

/-- `ring_write(R, wi, fill, C, v)` (R203). With `C = 0`, or an index that the array lacks, R19 has no
rule: nothing is stored, and the index and the fill go on as written (DESIGN CHOICE, log entry 31). -/
def ringWrite (c : Nat) (r : Ring) (v : F64) : Ring :=
  { buf := r.buf.set r.wi v, wi := (r.wi + 1) % c, fill := Nat.min (r.fill + 1) c }

/-- `ring_chrono(R, wi, fill, C)`: the `fill` newest elements, oldest first; the index is taken in
[0, C) (R203, R19). -/
def ringChrono (c : Nat) (r : Ring) : List F64 :=
  (List.range r.fill).map fun j =>
    elemAt r.buf (((r.wi : Int) - (r.fill : Int) + (j : Int)) % (c : Int)).toNat

/-! ## Advisory counts (R1212) -/

/-- `S.adv_chunk_dropped + 1` (R410). -/
def countChunkDropped (s : State) : State :=
  { s with adv := { s.adv with chunkDropped := satInc s.adv.chunkDropped } }

/-- `S.adv_unit_reset + 1` (R1008). -/
def countUnitReset (s : State) : State :=
  { s with adv := { s.adv with unitReset := satInc s.adv.unitReset } }

/-- `S.adv_decoder_starved + 1` (R1101). -/
def countDecoderStarved (s : State) : State :=
  { s with adv := { s.adv with decoderStarved := satInc s.adv.decoderStarved } }

/-- `S.adv_squelch + 1` (R802, R804). -/
def countSquelch (s : State) : State :=
  { s with adv := { s.adv with squelch := satInc s.adv.squelch } }

/-! ## Faults (R1209, R1210) -/

/-- `S.pc <- S.pc + 1`, modulo 2^64 (R101, R1208). -/
def bumpPc (s : State) : State := { s with pc := s.pc + 1 }

/-- `FAULT(c, i)` (R1209), applied to the state as it was before the command: the code, the info,
FAULTED and `pc + 1` are written, nothing else. -/
def takeFault (c : FaultCode) (info : BitVec 32) (s : State) : State :=
  { s with faultCode := c.code, faultInfo := info, life := .faulted, pc := s.pc + 1 }

/-- Leaving the faulted state, the part of a successful RESET that R1210 names: the fault registers
are cleared and the block runs. -/
def leaveFault (s : State) : State :=
  { s with faultCode := 0, faultInfo := 0, life := .running }

/-! ## Command acceptance (R400) -/

/-- `execute(W)` of R400 for a word that decodes to the command with opcode `op`: refused silently while
FAULTED, CMD_STATE where the lifecycle does not admit it, else the command's rule `body`, a fault of
which reverts to the state before the command (D62). -/
def runCommand (op : BitVec 8) (body : State → Except FaultCode State) (s : State) :
    Host.Outcome State Fault Refusal :=
  if admitted s.life op then
    match body s with
    | .ok t => .next (bumpPc t)
    | .error c => .next (takeFault c (faultInfoOf c op) s)
  else if s.life = .faulted then .next (bumpPc s)
  else .next (takeFault .cmdState (faultInfoOf .cmdState op) s)

/-- `execute(W)` of R400 for a word that does not decode: refused silently while FAULTED, else
CMD_ILLEGAL with the opcode byte (R1205). -/
def illegalCommand (op : BitVec 8) (s : State) : State :=
  if s.life = .faulted then bumpPc s
  else takeFault .cmdIllegal (faultInfoOf .cmdIllegal op) s

/-- The end of a micro-op that runs by itself: its state, or the fault entry of the command whose
opcode the operand latch names (log entry 7). No fault is raised while FAULTED, so the recorded code
stays until a RESET (R104, R1210): there the micro-op changes nothing. `S.life` gates it no further
(DESIGN CHOICE, log entry 32). -/
def runMicroOp (r : Except FaultCode State) (s : State) : Host.Outcome State Fault Refusal :=
  match r with
  | .ok t => .next t
  | .error c =>
    if s.life = .faulted then .next s else .next (takeFault c (faultInfoOf c s.args.op) s)

/-! ## Ports -/

/-- The bytes of a held partial word are discarded; whole words stay (R211, log entry 3). -/
def dropPartialWord (s : State) : State :=
  { s with port := s.port.take (s.port.length / 8 * 8) }

/-- A response is placed on the response port (R308). -/
def respond (r : Response) (s : State) : State := { s with resp := s.resp ++ [r] }

/-- The result of a micro-op run by itself (log entry 6). -/
def setRet (r : Ret) (s : State) : State := { s with ret := r }

end Sys2Proof.Machine
end

