-- ==== Sys2Proof/Machine/Operands.lean ====
section
/-! DEFINITION. The operand forms. A host command has one: the binary32 payload `P`, widened exactly
(spec/30_encoding.md R301), with the range that its rule admits (spec/60_exceptions.md R1207). RESET's
operand is the record beside the word (R307). A micro-op's operands come from the rule that invokes it;
run by itself, from the operand latch (log entry 6), read here by name. -/

namespace Sys2Proof.Machine

/-- `to_f64(f32_from_bits(P))` (R301). -/
def payload (p : F32) : F64 := F64.ofF32 p

/-- SAMPLE's range: finite and `abs(x) <= 1.0` (R402). -/
def sampleInRange (p : F32) : Bool :=
  (payload p).isFinite && !(F64.lt F64.one (payload p).abs)

/-- The range of INJECT_ENV and INJECT_TRANSITION: finite and not below 0.0; -0.0 is admitted (R409,
R412). -/
def nonNegInRange (p : F32) : Bool :=
  (payload p).isFinite && !(F64.lt (payload p) F64.zero)

/-- SET_TARGET_FREQ's range: finite, above 0.0 and below `cfg.fs / 2` (R413). -/
def freqInRange (fs : F64) (p : F32) : Bool :=
  (payload p).isFinite && !(F64.le (payload p) F64.zero) &&
    !(F64.le (fs.div F64.two) (payload p))

/-- The record beside the RESET word; with none supplied, a record with every OPEN field unsupplied
(R307, log entry 4). -/
def nextRecord (s : State) : CfgRecord := s.cfgIn.headD {}

/-- The state with that record taken from the configuration input (log entry 4). -/
def takeRecord (s : State) : State := { s with cfgIn := s.cfgIn.tail }

/-- The transition operand of SYMBOL_STAGE in the latch: `flag` = finished_state, `x` = duration_ms. -/
def latchedTransition (s : State) : Transition := ⟨s.args.flag, s.args.x⟩

/-- The suggestion operand of PCT_TO_HL in the latch: `x`, `y`, `z` = thr, peak, noise; `flag` =
squelch. -/
def latchedSuggestion (s : State) : Suggestion := ⟨s.args.x, s.args.y, s.args.z, s.args.flag⟩

/-- The cascade of a branch (R110). -/
def cascadeOf (d : Demod) : Branch → List Biquad
  | .i => d.lpfI
  | .q => d.lpfQ

/-- The demodulator with another cascade in a branch. -/
def withCascade (d : Demod) (b : Branch) (c : List Biquad) : Demod :=
  match b with
  | .i => { d with lpfI := c }
  | .q => { d with lpfQ := c }

end Sys2Proof.Machine
end

