-- ==== Sys2Proof/Machine/Filter.lean ====
section
/-! DEFINITION. butterworth_lpf_4th_order (spec/41_butterworth_lpf.md): LPF_DESIGN, BIQUAD_STEP,
LPF_CASCADE_STEP. -/

namespace Sys2Proof.Machine

/-- `fc = min(filter_bw_hz / 2, 0.499 * fs)` (R500). -/
def cutoffOf (bw fs : F64) : F64 := (bw.div F64.two).min (F64.nyquistFrac.mul fs)

/-- The pre-warp `w = (2.0 * fs) * tan64((PI64 * fc) / fs)` (R501). -/
def prewarp (fs fc : F64) : F64 :=
  (F64.two.mul fs).mul (Config.numerics.tan ((F64.pi.mul fc).div fs))

/-- The pole angle `(PI64 * (2k + 1)) / (2N)` (R502). -/
def poleAngle (n k : Nat) : F64 := (F64.pi.mul (F64.ofNat (2 * k + 1))).div (F64.ofNat (2 * n))

/-- The section of R503 for `sin64(θ)`, `w` and `K`, with both state variables 0.0. -/
def designSection (sn w k : F64) : Biquad :=
  let kk := k.mul k
  let ww := w.mul w
  let cross := ((F64.two.mul sn).mul w).mul k
  let a0 := (kk.add cross).add ww
  { b0 := ww.div a0
    b1 := ((F64.two.mul w).mul w).div a0
    b2 := ww.div a0
    a1 := (((F64.two.mul w).mul w).sub ((F64.two.mul k).mul k)).div a0
    a2 := ((kk.sub cross).add ww).div a0
    s1 := F64.zero
    s2 := F64.zero }

/-- The sections of one branch: section j is `k = N/2 - 1 - j`, low Q first (R502, R503). -/
def designCascade (n : Nat) (fs fc : F64) : List Biquad :=
  (List.range (n / 2)).map fun j =>
    designSection (Config.numerics.sin (poleAngle n (n / 2 - 1 - j))) (prewarp fs fc)
      (F64.two.mul fs)

/-- LPF_DESIGN: both branches get the same coefficients and zero state (R503). -/
def lpfDesign (c : Cfg) (d : Demod) : Demod :=
  { d with lpfI := designCascade c.filterOrder c.fs c.fc,
           lpfQ := designCascade c.filterOrder c.fs c.fc }

/-- BIQUAD_STEP: transposed direct form II; the new `s1` reads the old `s2` (R504). -/
def biquadStep (b : Biquad) (x : F64) : Biquad × F64 :=
  let y := (b.b0.mul x).add b.s1
  ({ b with s1 := ((b.b1.mul x).sub (b.a1.mul y)).add b.s2,
            s2 := (b.b2.mul x).sub (b.a2.mul y) }, y)

/-- LPF_CASCADE_STEP: the sections in order, each fed the one before (R505). -/
def cascadeStep : List Biquad → F64 → List Biquad × F64
  | [], x => ([], x)
  | b :: bs, x =>
    let r := biquadStep b x
    let t := cascadeStep bs r.2
    (r.1 :: t.1, t.2)

/-- BIQUAD_STEP by itself: section `index` of `branch`, input `x`; where the branch has no such section,
no section is updated and the result is a free value (log entry 17). -/
def execBiquadStep (s : State) : Host.Outcome State Fault Refusal :=
  let secs := cascadeOf s.demod s.args.branch
  match secs[s.args.index]? with
  | some b =>
    let r := biquadStep b s.args.x
    .next (setRet (.num r.2)
      { s with demod := withCascade s.demod s.args.branch (secs.set s.args.index r.1) })
  | none => .next (setRet (.num (Config.arrayOpen [] s.args.index)) s)

/-- LPF_CASCADE_STEP by itself: `branch`, input `x`. -/
def execLpfCascadeStep (s : State) : Host.Outcome State Fault Refusal :=
  let r := cascadeStep (cascadeOf s.demod s.args.branch) s.args.x
  .next (setRet (.num r.2) { s with demod := withCascade s.demod s.args.branch r.1 })

/-- LPF_DESIGN by itself: no operand. -/
def execLpfDesign (s : State) : Host.Outcome State Fault Refusal :=
  .next { s with demod := lpfDesign s.cfg s.demod }

end Sys2Proof.Machine
end

