-- ==== Sys2Proof/Machine/Demodulator.lean ====
section
/-! DEFINITION. i_q_demod_mixer, envelope_magnitude_unit and afc_phase_loop (spec/42_iq_demod_afc.md):
SDR_STEP, LO_GEN, IQ_MIX, ENVELOPE, AFC_UPDATE, PHASE_ADVANCE, SDR_RETUNE. -/

namespace Sys2Proof.Machine

/-- LO_GEN: `(cos64(S.phi), sin64(S.phi))` (R601). -/
def loGen (d : Demod) : F64 × F64 := (Config.numerics.cos d.phi, Config.numerics.sin d.phi)

/-- IQ_MIX: `(v * c, v * s)` (R602). -/
def iqMix (v c s : F64) : F64 × F64 := (v.mul c, v.mul s)

/-- ENVELOPE: `2.0 * sqrt64((I * I) + (Q * Q))` (R605). -/
def envelopeOf (i q : F64) : F64 := F64.two.mul (F64.sqrt ((i.mul i).add (q.mul q)))

/-- The phase difference wrapped into (-π, π], one wrap step (R604). -/
def wrapPhase (d : F64) : F64 :=
  if F64.lt F64.pi d then d.sub F64.twoPi
  else if F64.le d F64.negPi then d.add F64.twoPi
  else d

/-- AFC_CORRECT (R604). -/
def afcCorrect (c : Cfg) (d : Demod) (curr : F64) : Demod :=
  let diff := wrapPhase (curr.sub d.afcPrevPhase)
  let err := (diff.mul c.fs).div F64.twoPi
  if F64.lt err.abs c.afcDeadbandHz then d
  else
    let cf := d.afcFreq.add (c.afcPolarity.mul (err.mul c.afcGain))
    let f := cf.clamp (d.f0.sub c.afcRangeHz) (d.f0.add c.afcRangeHz)
    { d with afcFreq := f, afcPhaseInc := phaseIncOf f c.fs }

/-- AFC_UPDATE: the gate and the measurement, then the correction (R603); the result is the phase
increment. -/
def afcUpdate (c : Cfg) (d : Demod) (i q e : F64) : Demod × F64 :=
  if F64.lt c.afcGate e then
    let n := Nat.min (d.afcCount + 1) c.afcMinConsecutive
    let curr := Config.numerics.atan2 q i
    let d1 := { d with afcCount := n }
    let d2 := if c.afcMinConsecutive ≤ n then afcCorrect c d1 curr else d1
    let d3 := { d2 with afcPrevPhase := curr }
    (d3, d3.afcPhaseInc)
  else
    ({ d with afcCount := 0 }, d.afcPhaseInc)

/-- PHASE_INCREMENT: from the AFC, or `(TWO_PI * S.f0) / S.cfg.fs` (R606). -/
def phaseIncrement (c : Cfg) (d : Demod) (i q e : F64) : Demod × F64 :=
  if c.afcEnabled then afcUpdate c d i q e else (d, phaseIncOf d.f0 c.fs)

/-- PHASE_ADVANCE (R607). -/
def phaseAdvance (d : Demod) (dphi : F64) : Demod :=
  let p := F64.fmod (d.phi.add dphi) F64.twoPi
  let p1 := if F64.lt p F64.zero then p.add F64.twoPi else p
  { d with phi := if F64.le F64.twoPi p1 then F64.zero else p1 }

/-- SDR_STEP: the six steps of R600 in order; the result is the envelope. -/
def sdrStep (c : Cfg) (d : Demod) (v : F64) : Demod × F64 :=
  let lo := loGen d
  let m := iqMix v lo.1 lo.2
  let ri := cascadeStep d.lpfI m.1
  let rq := cascadeStep d.lpfQ m.2
  let d1 := { d with lpfI := ri.1, lpfQ := rq.1 }
  let e := envelopeOf ri.2 rq.2
  let inc := phaseIncrement c d1 ri.2 rq.2 e
  (phaseAdvance inc.1 inc.2, e)

/-- SDR_RETUNE: within 5 Hz nothing; else the target, the AFC frequency, the increment and the count
(R608); the filters and the phase are kept (R609). -/
def sdrRetune (c : Cfg) (d : Demod) (f : F64) : Demod :=
  if F64.lt (f.sub d.f0).abs F64.five then d
  else { d with f0 := f, afcFreq := f, afcPhaseInc := phaseIncOf f c.fs, afcCount := 0 }

/-- LO_GEN by itself: no operand; the pair (cos, sin). -/
def execLoGen (s : State) : Host.Outcome State Fault Refusal :=
  .next (setRet (.pair (loGen s.demod).1 (loGen s.demod).2) s)

/-- IQ_MIX by itself: `x`, `y`, `z` = v, c, s. -/
def execIqMix (s : State) : Host.Outcome State Fault Refusal :=
  let m := iqMix s.args.x s.args.y s.args.z
  .next (setRet (.pair m.1 m.2) s)

/-- ENVELOPE by itself: `x`, `y` = I, Q. -/
def execEnvelope (s : State) : Host.Outcome State Fault Refusal :=
  .next (setRet (.num (envelopeOf s.args.x s.args.y)) s)

/-- AFC_UPDATE by itself: `x`, `y`, `z` = I, Q, e. -/
def execAfcUpdate (s : State) : Host.Outcome State Fault Refusal :=
  let r := afcUpdate s.cfg s.demod s.args.x s.args.y s.args.z
  .next (setRet (.num r.2) { s with demod := r.1 })

/-- PHASE_ADVANCE by itself: `x` = Δφ. -/
def execPhaseAdvance (s : State) : Host.Outcome State Fault Refusal :=
  .next { s with demod := phaseAdvance s.demod s.args.x }

/-- SDR_RETUNE by itself: `x` = f. -/
def execSdrRetune (s : State) : Host.Outcome State Fault Refusal :=
  .next { s with demod := sdrRetune s.cfg s.demod s.args.x }

/-- SDR_STEP by itself: `x` = v. -/
def execSdrStep (s : State) : Host.Outcome State Fault Refusal :=
  let r := sdrStep s.cfg s.demod s.args.x
  .next (setRet (.num r.2) { s with demod := r.1 })

end Sys2Proof.Machine
end

