-- ==== Sys2Proof/Machine/SchmittTrigger.lean ====
section
/-! DEFINITION. schmitt_trigger_hysteresis and debounce_edge_detector (spec/45_schmitt_debounce.md):
SCHMITT_RAW, DEBOUNCE_STEP, TRIG_STEP. -/

namespace Sys2Proof.Machine

/-- SCHMITT_RAW (R901). -/
def schmittRaw (t : Trigger) (env high low : F64) : Bool :=
  if t.current && F64.lt env low then false
  else if !t.current && F64.lt high env then true
  else t.current

/-- `(samples * 1000) / fs` in f64 (R902, R904). -/
def durationMs (fs : F64) (samples : U64) : F64 :=
  ((F64.ofNat samples.toNat).mul F64.thousand).div fs

/-- DEBOUNCE_STEP (R902). -/
def debounceStep (c : Cfg) (t : Trigger) (raw : Bool) : Trigger × Option Transition :=
  if raw = t.current then ({ t with pending := false }, none)
  else if !t.pending then ({ t with pending := true, changeStart := t.total }, none)
  else if F64.lt c.debounceCount (F64.ofNat (t.total - t.changeStart).toNat) then
    ({ t with current := raw, stateStart := t.changeStart, pending := false },
      some ⟨t.current, durationMs c.fs (t.changeStart - t.stateStart)⟩)
  else (t, none)

/-- TRIG_STEP: the raw decision, the debounce, then `total_samples + 1`, which faults where it would
pass 2^64 - 1 (R903, R1208). -/
def trigStep (c : Cfg) (t : Trigger) (env high low : F64) :
    Except FaultCode (Trigger × Option Transition) :=
  let r := debounceStep c t (schmittRaw t env high low)
  if r.1.total = BitVec.allOnes 64 then .error .counterOverflow
  else .ok ({ r.1 with total := r.1.total + 1 }, r.2)

/-- SCHMITT_RAW by itself: `x`, `y`, `z` = env, high, low. -/
def execSchmittRaw (s : State) : Host.Outcome State Fault Refusal :=
  .next (setRet (.bool (schmittRaw s.trig s.args.x s.args.y s.args.z)) s)

/-- DEBOUNCE_STEP by itself: `flag` = raw. -/
def execDebounceStep (s : State) : Host.Outcome State Fault Refusal :=
  let r := debounceStep s.cfg s.trig s.args.flag
  .next (setRet (.event r.2) { s with trig := r.1 })

/-- TRIG_STEP by itself: `x`, `y`, `z` = env, high, low. -/
def execTrigStep (s : State) : Host.Outcome State Fault Refusal :=
  runMicroOp
    (match trigStep s.cfg s.trig s.args.x s.args.y s.args.z with
      | .ok r => .ok (setRet (.event r.2) { s with trig := r.1 })
      | .error c => .error c) s

end Sys2Proof.Machine
end

