-- ==== Sys2Proof/Machine/SpectrumMonitor.lean ====
section
/-! DEFINITION. welch_spectrum_monitor, the frequency tracker (spec/43_welch_spectrum_monitor.md):
MON_DEQUEUE, MON_TICK, WELCH_PSD, NOISE_FLOOR, PEAK_SEARCH, PARABOLIC_REFINE, ACCEPT_AND_SMOOTH. -/

namespace Sys2Proof.Machine

/-- `S.mon_since_tick + n`; past 2^64 - 1, a free value (log entry 16). -/
def addSinceTick (t : U64) (n : Nat) : U64 :=
  if t.toNat + n < 2 ^ 64 then BitVec.ofNat 64 (t.toNat + n) else Config.sinceTickOpen t n

/-- The ring and the tick account after a chunk, sample by sample in order (R701). -/
def absorbChunk (c : Cfg) (m : Monitor) (chunk : List F64) : Monitor :=
  { m with ring := chunk.foldl (ringWrite c.monRingLen) m.ring,
           sinceTick := addSinceTick m.sinceTick chunk.length }

/-- MON_DEQUEUE: the oldest chunk moves from the queue into the ring (R701); an empty queue has
nothing to move. -/
def monDequeue (s : State) : State :=
  match s.link.queue with
  | [] => s
  | chunk :: rest =>
    { s with mon := absorbChunk s.cfg s.mon chunk, link := { s.link with queue := rest } }

/-- `hann[n] = 0.5 * (1.0 - cos64((TWO_PI * n) / (N - 1)))` (R703). -/
def hann (n k : Nat) : F64 :=
  F64.half.mul (F64.one.sub
    (Config.numerics.cos ((F64.twoPi.mul (F64.ofNat k)).div (F64.ofNat (n - 1)))))

/-- The number of segments `M` of a copy of length `L` (R702). -/
def segmentCount (n hop len : Nat) : Nat := if len < n then 0 else (len - n) / hop + 1

/-- The windowed segment that starts at `start` (R702, R704). -/
def windowed (n : Nat) (buf : List F64) (start : Nat) : List F64 :=
  (List.range n).map fun k => (elemAt buf (start + k)).mul (hann n k)

/-- The power of bins 0..N/2 of a segment (R15, R704). -/
def segmentPower (n : Nat) (seg : List F64) : List F64 :=
  (List.range (n / 2 + 1)).map fun k => Config.numerics.fftPower seg k

/-- The sum of the segment powers, bin by bin, in increasing segment order: the first as it is, each
later one added (R704). -/
def sumPowers : List (List F64) → List F64
  | [] => []
  | p :: ps => ps.foldl (fun acc q => List.zipWith F64.add acc q) p

/-- WELCH_PSD: the average power of bins 0..N/2 (R704). Without a segment there is no sum to read
(log entry 17); MON_TICK does not come here then. -/
def welchPsd (c : Cfg) (buf : List F64) : List F64 :=
  let m := segmentCount c.fftSize c.hop buf.length
  let acc := sumPowers
    ((List.range m).map fun j => segmentPower c.fftSize (windowed c.fftSize buf (j * c.hop)))
  (List.range (c.fftSize / 2 + 1)).map fun k => (elemAt acc k).div (F64.ofNat m)

/-- The median: the middle of the sorted values, or the mean of the two middle ones (R705, I21). -/
def median (p : List F64) : F64 :=
  let v := sortAsc p
  if p.length % 2 = 1 then elemAt v (p.length / 2)
  else ((elemAt v (p.length / 2 - 1)).add (elemAt v (p.length / 2))).div F64.two

/-- NOISE_FLOOR: `max(median(P), 1e-9)` (R705). -/
def noiseFloor (p : List F64) : F64 := (median p).max F64.billionth

/-- The bins whose frequency `(k * fs) / N` lies in [min_freq_hz, max_freq_hz] (R706). -/
def bandBins (c : Cfg) : List Nat :=
  (List.range (c.fftSize / 2 + 1)).filter fun k =>
    let f := ((F64.ofNat k).mul c.fs).div (F64.ofNat c.fftSize)
    F64.le c.minFreqHz f && F64.le f c.maxFreqHz

/-- PEAK_SEARCH: the strongest bin of the band, the lowest of equals, none of an empty band (R706). -/
def peakSearch (c : Cfg) (p : List F64) : Option Nat :=
  match bandBins c with
  | [] => none
  | k0 :: ks =>
    some ((k0 :: ks).foldl (fun kp k => if F64.lt (elemAt p kp) (elemAt p k) then k else kp) k0)

/-- PARABOLIC_REFINE: the offset δ in [-0.5, 0.5] (R707). -/
def parabolicRefine (cfg : Cfg) (p : List F64) (kp : Nat) : F64 :=
  if kp < 1 ∨ (cfg.fftSize : Int) / 2 - 1 < (kp : Int) then F64.zero
  else
    let a := elemAt p (kp - 1)
    let b := elemAt p kp
    let c := elemAt p (kp + 1)
    let den := (a.sub (F64.two.mul b)).add c
    if F64.feq den F64.zero then F64.zero
    else ((F64.half.mul (a.sub c)).div den).clamp (F64.half.neg) F64.half

/-- The refined frequency `((kp + δ) * fs) / N` (R708). -/
def refinedFreq (c : Cfg) (kp : Nat) (delta : F64) : F64 :=
  (((F64.ofNat kp).add delta).mul c.fs).div (F64.ofNat c.fftSize)

/-- The acceptance test: `peak > noise * required_snr` and `peak > 0.001` (R709). -/
def accepted (c : Cfg) (peak noise : F64) : Bool :=
  F64.lt (noise.mul c.requiredSnr) peak && F64.lt F64.thousandth peak

/-- The smoothing factor alpha (R710). -/
def smoothingAlpha (c : Cfg) (snr : F64) : F64 :=
  (c.alphaBase.add (((F64.ten.mul (Config.numerics.log10 snr)).div c.requiredSnr).mul
    c.alphaGain)).min c.alphaMax

/-- The smoothed frequency after an accepted result: latched at the first, mixed later (R710). -/
def smoothed (c : Cfg) (m : Monitor) (snr fNew : F64) : F64 :=
  if m.locked then
    ((F64.one.sub (smoothingAlpha c snr)).mul m.fsmooth).add ((smoothingAlpha c snr).mul fNew)
  else fNew

/-- ACCEPT_AND_SMOOTH: on acceptance the smoothed frequency, the lock and the slot are written; on a
rejection nothing (R709, R710). -/
def acceptAndSmooth (s : State) (peak noise fNew : F64) : State :=
  if accepted s.cfg peak noise then
    let f := smoothed s.cfg s.mon (peak.div noise) fNew
    { s with mon := { s.mon with fsmooth := f, locked := true },
             link := { s.link with freqSlot := some f } }
  else s

/-- MON_TICK: one analysis of the ring's chronological copy (R711, R702). -/
def monTick (s : State) : State :=
  let buf := ringChrono s.cfg.monRingLen s.mon.ring
  if buf.length < s.cfg.fftSize then s
  else
    let p := welchPsd s.cfg buf
    match peakSearch s.cfg p with
    | none => s
    | some kp =>
      acceptAndSmooth s (elemAt p kp) (noiseFloor p)
        (refinedFreq s.cfg kp (parabolicRefine s.cfg p kp))

/-- One period is charged to the tick account (R421). -/
def chargeTick (s : State) : State :=
  { s with mon := { s.mon with
      sinceTick := s.mon.sinceTick - BitVec.ofNat 64 s.cfg.tickSamples } }

/-- MON_DEQUEUE as a step of the monitor agent: enabled as R421 says and with a chunk in the queue; a
step that is not enabled changes nothing (log entry 8). -/
def execMonDequeue (s : State) : Host.Outcome State Fault Refusal :=
  .next (if monitorEnabled s then monDequeue s else s)

/-- MON_TICK as a step of the monitor agent: enabled as R421 says (log entry 8). -/
def execMonTick (s : State) : Host.Outcome State Fault Refusal :=
  .next (if monitorEnabled s then monTick s else s)

/-- WELCH_PSD by itself: `vec` = buf. -/
def execWelchPsd (s : State) : Host.Outcome State Fault Refusal :=
  .next (setRet (.vec (welchPsd s.cfg s.args.vec)) s)

/-- NOISE_FLOOR by itself: `vec` = P. -/
def execNoiseFloor (s : State) : Host.Outcome State Fault Refusal :=
  .next (setRet (.num (noiseFloor s.args.vec)) s)

/-- PEAK_SEARCH by itself: `vec` = P. -/
def execPeakSearch (s : State) : Host.Outcome State Fault Refusal :=
  .next (setRet (.bin (peakSearch s.cfg s.args.vec)) s)

/-- PARABOLIC_REFINE by itself: `vec` = P, `index` = kp. -/
def execParabolicRefine (s : State) : Host.Outcome State Fault Refusal :=
  .next (setRet (.num (parabolicRefine s.cfg s.args.vec s.args.index)) s)

/-- ACCEPT_AND_SMOOTH by itself: `x`, `y`, `z` = peak, noise, f_new. -/
def execAcceptAndSmooth (s : State) : Host.Outcome State Fault Refusal :=
  .next (acceptAndSmooth s s.args.x s.args.y s.args.z)

end Sys2Proof.Machine
end

