-- ==== Sys2Proof/Machine/Analyzer.lean ====
section
/-! DEFINITION. The statistical analyzer (spec/46_symbol_timing.md R1009, R1010): STATS_PUSH,
STATS_ANALYZE. -/

namespace Sys2Proof.Machine

/-- STATS_PUSH (R1009). -/
def statsPush (c : Cfg) (r : Ring) (d : F64) : Ring := ringWrite c.statsWindowSize r d

/-- The mean of MEAN_SD, summed left to right from 0.0 (R1010). -/
def meanOf (x : List F64) : F64 := (sumLeft x).div (F64.ofNat x.length)

/-- The population standard deviation of MEAN_SD (R1010). -/
def stddevOf (x : List F64) : F64 :=
  let m := meanOf x
  F64.sqrt ((sumLeft (x.map fun v => (v.sub m).mul (v.sub m))).div (F64.ofNat x.length))

/-- The scan for the largest gap `v[i+1] - v[i]` over the given indices, from `best = -1.0`; the first
maximum wins (R1010). -/
def largestGap (v : List F64) (is : List Nat) : F64 × Option Nat :=
  is.foldl (fun acc i =>
    let g := (elemAt v (i + 1)).sub (elemAt v i)
    if F64.lt acc.1 g then (g, some i) else acc) (F64.negOne, none)

/-- The indices `lo .. hi-1` of the central half (R1010). -/
def centralIndices (w : Nat) : List Nat :=
  let lo := F64.floor (F64.quarter.mul (F64.ofNat w))
  let hi := F64.floor (F64.threeQuarters.mul (F64.ofNat w))
  (List.range (hi - lo)).map (lo + ·)

/-- STATS_ANALYZE: none is `invalid` (R1010). -/
def statsAnalyze (c : Cfg) (r : Ring) : Option Analysis :=
  if r.fill < c.statsWindowSize then none
  else
    let v := sortAsc (r.buf.take c.statsWindowSize)
    match largestGap v (centralIndices c.statsWindowSize) with
    | (_, none) => none
    | (best, some bi) =>
      if F64.lt best F64.twenty then none
      else
        let dits := v.take (bi + 1)
        let dahs := v.drop (bi + 1)
        let spread := (((stddevOf dits).div (meanOf dits)).add
          ((stddevOf dahs).div (meanOf dahs))).div F64.two
        some {
          optimalThreshold := ((elemAt v bi).add (elemAt v (bi + 1))).div F64.two
          ditMean := meanOf dits
          ditStddev := stddevOf dits
          dahMean := meanOf dahs
          dahStddev := stddevOf dahs
          confidence := (F64.one.sub spread).max F64.tenth }

/-- STATS_PUSH by itself: `x` = d. -/
def execStatsPush (s : State) : Host.Outcome State Fault Refusal :=
  .next { s with sym := { s.sym with stats := statsPush s.cfg s.sym.stats s.args.x } }

/-- STATS_ANALYZE by itself: no operand. -/
def execStatsAnalyze (s : State) : Host.Outcome State Fault Refusal :=
  .next (setRet (.analysis (statsAnalyze s.cfg s.sym.stats)) s)

end Sys2Proof.Machine
end

