-- ==== Sys2Proof/Machine/BeamDecoder.lean ====
section
/-! DEFINITION. viterbi_beam_decoder_with_ngram (spec/47_beam_decoder.md): BEAM_STEP, EMISSION_SCORE,
BEAM_PRUNE, BEAM_INJECT_SPACE, BEAM_GET_RESULT, LM_LOAD, LM_GET, and the PATTERNS table. -/

namespace Sys2Proof.Machine

/-! ## The pattern table (R1110) -/

/-- The characters and codes of R1110, in its order: letters, digits, punctuation. -/
def patternCodes : List (Char × String) :=
  [('A', ".-"), ('B', "-..."), ('C', "-.-."), ('D', "-.."), ('E', "."), ('F', "..-."),
   ('G', "--."), ('H', "...."), ('I', ".."), ('J', ".---"), ('K', "-.-"), ('L', ".-.."),
   ('M', "--"), ('N', "-."), ('O', "---"), ('P', ".--."), ('Q', "--.-"), ('R', ".-."),
   ('S', "..."), ('T', "-"), ('U', "..-"), ('V', "...-"), ('W', ".--"), ('X', "-..-"),
   ('Y', "-.--"), ('Z', "--..")] ++
  [('0', "-----"), ('1', ".----"), ('2', "..---"), ('3', "...--"), ('4', "....-"),
   ('5', "....."), ('6', "-...."), ('7', "--..."), ('8', "---.."), ('9', "----.")] ++
  [('.', ".-.-.-"), (',', "--..--"), ('?', "..--.."), ('\'', ".----."), ('!', "-.-.--"),
   ('/', "-..-."), ('(', "-.--."), (')', "-.--.-"), ('&', ".-..."), (':', "---..."),
   (';', "-.-.-."), ('=', "-...-"), ('+', ".-.-."), ('-', "-....-"), ('_', "..--.-"),
   ('"', ".-..-."), ('$', "...-..-"), ('@', ".--.-.")]

/-- The pulse of one code element: '.' is 1.0, '-' is 3.0 (R1110). -/
def markOf (ch : Char) : F64 := if ch = '-' then F64.three else F64.one

/-- The sequence of a code: its marks, separated by the gap 1.0 (R1110). -/
def sequenceOf (code : List Char) : List F64 := (code.map markOf).intersperse F64.one

/-- PATTERNS (R1110, R172). -/
def patterns : List (Char × List F64) := patternCodes.map fun e => (e.1, sequenceOf e.2.toList)

/-! ## Language model (R1108, R1109) -/

/-- The two default log-probabilities, `log64(0.05)` and `log64(1e-6)` (R1109, R8). -/
def startPrior : F64 := Config.numerics.log F64.twentieth
def defaultPenalty : F64 := Config.numerics.log F64.millionth

/-- One entry of the record is valid: one-character key, `log(1e-6) < v <= 0.0`, finite (R1108). The
bound is the value that R1108 prints for `log(1e-6)`, not the parameter `numerics.log` of R14, which
LM_GET applies (DEDUCED, log entry 34). -/
def lmEntryValid (e : Text × F64) : Bool :=
  e.1.length == 1 && e.2.isFinite && F64.lt F64.lmBound e.2 && F64.le e.2 F64.zero

/-- The validation of LM_LOAD (R1108). -/
def lmValid (m : LmRecord) : Bool :=
  m.all fun row => decide (row.1.length ≤ 1) && row.2.all lmEntryValid

/-- LM_LOAD: the accepted map unchanged, or CFG_LM_INVALID (R1108, R1203); a record with no map (a parse
failure, or none supplied) is invalid (R307). -/
def lmLoad (m : Option LmRecord) : Except FaultCode LangModel :=
  match m with
  | some r => if lmValid r then .ok r else .error .cfgLmInvalid
  | none => .error .cfgLmInvalid

/-- The outer key of a predecessor: "" for none, else the one-character string (R1109). -/
def lmKey (prev : Option Char) : Text :=
  match prev with
  | none => []
  | some c => [c]

/-- LM_GET: the table, else log 0.05 after the empty predecessor, else log 1e-6 (R1109). -/
def lmGet (m : LangModel) (prev : Option Char) (next : Char) : F64 :=
  match (m.lookup (lmKey prev)).bind (fun row => row.lookup [next]) with
  | some v => v
  | none => if lmKey prev = [] then startPrior else defaultPenalty

/-! ## Beam (R1100 to R1107) -/

/-- STEP_STATS: the analyzer's deviations, or (0.2, 0.4) (R1102). -/
def stepStats (s : State) : F64 × F64 :=
  match statsAnalyze s.cfg s.sym.stats with
  | some r => (r.ditStddev, r.dahStddev)
  | none => (F64.fifth, F64.twoFifths)

/-- One term of EMISSION_SCORE: `-(d * d) / ((2.0 * sg) * sg)` (R1103). -/
def emissionTerm (sdDit sdDah sig pat : F64) : F64 :=
  let sg0 := if F64.lt F64.two pat then sdDah else sdDit
  let sg := (sg0.max F64.quarter).min F64.five
  let d := sig.sub pat
  (d.mul d).neg.div ((F64.two.mul sg).mul sg)

/-- EMISSION_SCORE (R1103). -/
def emissionScore (sig pat : List F64) (sdDit sdDah : F64) : F64 :=
  if sig.length ≠ pat.length then F64.negThousand
  else sumLeft (List.zipWith (emissionTerm sdDit sdDah) sig pat)

/-- The candidate of a path and a pattern; none on a length mismatch or an early prune (R1101). -/
def candidate (m : LangModel) (sd : F64 × F64) (sig : List F64) (p : Path)
    (e : Char × List F64) : Option Path :=
  if e.2.length ≠ sig.length then none
  else
    let sc := emissionScore sig e.2 sd.1 sd.2
    if F64.lt sc F64.negFifty then none
    else some ⟨p.sentence ++ [e.1], some e.1, p.score.add (sc.add (lmGet m p.lastChar e.1))⟩

/-- All candidates, path by path in beam order, pattern by pattern in table order (R1101). -/
def candidates (m : LangModel) (sd : F64 × F64) (sig : List F64) (ps : List Path) : List Path :=
  ps.flatMap fun p => patterns.filterMap (candidate m sd sig p)

/-- `stable_sort_desc_by_score` (R16). -/
def sortByScore (c : List Path) : List Path :=
  c.insertionSort (fun a b => F64.before a.score b.score = false)

/-- The one pass of BEAM_PRUNE over the sorted candidates: it ends at the score window or at K, and
skips a `last_char` already seen (R1105). -/
def prunePass (t : F64) (k : Nat) (best : F64) : List Path → List Path → List Path
  | out, [] => out
  | out, p :: ps =>
    if !(F64.le (best.sub t) p.score) then out
    else if k ≤ out.length then out
    else if (out.map Path.lastChar).contains p.lastChar then prunePass t k best out ps
    else prunePass t k best (out ++ [p]) ps

/-- BEAM_PRUNE (R1105). Of an empty list there is no pass to make (log entry 28). -/
def beamPrune (cfg : Cfg) (c : List Path) : List Path :=
  match sortByScore c with
  | [] => []
  | v0 :: vs => prunePass cfg.pruneThreshold cfg.beamWidth v0.score [] (v0 :: vs)

/-- BEAM_STEP: starved, the beam stays and the event is counted; else the candidates are pruned
(R1101). -/
def beamStep (s : State) (sig : List F64) : State :=
  let c := candidates s.dec.lm (stepStats s) sig s.dec.paths
  if c = [] then countDecoderStarved s
  else { s with dec := { s.dec with paths := beamPrune s.cfg c } }

/-- A path with a space appended, where R1106 appends one. -/
def spacedPath (m : LangModel) (p : Path) : Path :=
  if p.sentence ≠ [] ∧ p.sentence.getLast? ≠ some ' ' then
    ⟨p.sentence ++ [' '], some ' ', p.score.add (lmGet m p.lastChar ' ')⟩
  else p

/-- BEAM_INJECT_SPACE: every path spaced, then the full prune (R1106, D58). -/
def beamInjectSpace (s : State) : State :=
  { s with dec := { s.dec with
      paths := beamPrune s.cfg (s.dec.paths.map (spacedPath s.dec.lm)) } }

/-- BEAM_GET_RESULT: `S.paths[0].sentence` (R1107); of a beam without a path, a free value (log
entry 17). -/
def beamGetResult (d : Decoder) : Text :=
  match d.paths with
  | p :: _ => p.sentence
  | [] => Config.noPathText

/-- BEAM_STEP by itself: `vec` = sig. -/
def execBeamStep (s : State) : Host.Outcome State Fault Refusal := .next (beamStep s s.args.vec)

/-- EMISSION_SCORE by itself: `vec`, `vec2` = sig, pat; `x`, `y` = sd_dit, sd_dah. -/
def execEmissionScore (s : State) : Host.Outcome State Fault Refusal :=
  .next (setRet (.num (emissionScore s.args.vec s.args.vec2 s.args.x s.args.y)) s)

/-- LM_GET by itself: `prev`, `next`. -/
def execLmGet (s : State) : Host.Outcome State Fault Refusal :=
  .next (setRet (.num (lmGet s.dec.lm s.args.prev s.args.next)) s)

/-- BEAM_PRUNE by itself: `cands` = c; the new path list is the result. -/
def execBeamPrune (s : State) : Host.Outcome State Fault Refusal :=
  .next (setRet (.paths (beamPrune s.cfg s.args.cands)) s)

/-- BEAM_INJECT_SPACE by itself: no operand. -/
def execBeamInjectSpace (s : State) : Host.Outcome State Fault Refusal :=
  .next (beamInjectSpace s)

/-- BEAM_GET_RESULT by itself: no operand. -/
def execBeamGetResult (s : State) : Host.Outcome State Fault Refusal :=
  .next (setRet (.text (beamGetResult s.dec)) s)

/-- LM_LOAD by itself: `lm`; the accepted map becomes `S.lm`. -/
def execLmLoad (s : State) : Host.Outcome State Fault Refusal :=
  runMicroOp
    (match lmLoad s.args.lm with
      | .ok m => .ok { s with dec := { s.dec with lm := m } }
      | .error c => .error c) s

end Sys2Proof.Machine
end

