-- ==== Sys2Proof/Machine/SymbolTiming.lean ====
section
/-! DEFINITION. symbol_timing_normalizer (spec/46_symbol_timing.md): SYM_GAP_END, SYM_MARK_END,
SETTLE_MARK, SETTLE_GAP, SYM_FLUSH, WPM_UPDATE. -/

namespace Sys2Proof.Machine

/-- UNIT_FLOOR: below 10 ms the unit becomes 60 ms and the event is counted (R1008). -/
def unitFloor (s : State) : State :=
  if F64.lt s.sym.unitTimeMs F64.ten then
    countUnitReset { s with sym := { s.sym with unitTimeMs := F64.sixty } }
  else s

/-- The sample unit of WPM_UPDATE: the mark itself below the dot/dash threshold, else a third of it
(R1007). -/
def sampleUnit (st : Option Analysis) (unit d : F64) : F64 :=
  let thr := match st with
    | some r => r.optimalThreshold
    | none => F64.twoPointTwo.mul unit
  if F64.lt d thr then d else d.div F64.three

/-- The rate of WPM_UPDATE (R1007). -/
def updateRate (c : Cfg) (st : Option Analysis) : F64 :=
  match st with
  | some r => (c.wpmUpdateAlpha.mul r.confidence).clamp F64.twentieth F64.half
  | none => c.wpmUpdateAlpha

/-- The unit after one sample unit, kept outside the band [0.5, 1.5] (R1007). -/
def adaptedUnit (a unit su : F64) : F64 :=
  if F64.le (F64.half.mul unit) su && F64.le su (F64.oneAndHalf.mul unit) then
    (a.mul su).add ((F64.one.sub a).mul unit)
  else unit

/-- WPM_UPDATE: the mark enters the window, the window is analysed, the unit adapts and is floored
(R1007, R1008). -/
def wpmUpdate (s : State) (d : F64) : State :=
  let y1 := { s.sym with stats := statsPush s.cfg s.sym.stats d }
  let st := statsAnalyze s.cfg y1.stats
  let u := adaptedUnit (updateRate s.cfg st) y1.unitTimeMs (sampleUnit st y1.unitTimeMs d)
  unitFloor { s with sym := { y1 with unitTimeMs := u } }

/-- `append(S.pulse_buf, v)`, which faults where a fixed `pulse_buf_capacity` would be exceeded
(R206, R1208). -/
def pushPulse (s : State) (v : F64) : Except FaultCode State :=
  match s.params.pulseBufCapacity with
  | some cap =>
    if cap < s.sym.pulseBuf.length + 1 then .error .counterOverflow
    else .ok { s with sym := { s.sym with pulseBuf := s.sym.pulseBuf ++ [v] } }
  | none => .ok { s with sym := { s.sym with pulseBuf := s.sym.pulseBuf ++ [v] } }

/-- The high-side glitch of SETTLE_MARK: the last gap pulse, where the buffer ends in one, and the glitch
go back into the gap (R1003). -/
def foldGlitch (y : Symbols) : Symbols :=
  match y.pulseBuf.getLast? with
  | some g =>
    if y.pulseBuf.length % 2 = 0 then
      { y with pulseBuf := y.pulseBuf.dropLast,
               lastGapMs := (y.lastGapMs.add (g.mul y.unitTimeMs)).add y.pendingMarkMs }
    else { y with lastGapMs := y.lastGapMs.add y.pendingMarkMs }
  | none => { y with lastGapMs := y.lastGapMs.add y.pendingMarkMs }

/-- SETTLE_MARK: a real mark updates the unit and appends its pulse, by the unit so updated; a glitch is
folded into the gap (R1003). -/
def settleMark (s : State) : Except FaultCode State :=
  if F64.lt F64.zero s.sym.pendingMarkMs then
    if F64.lt s.cfg.glitchThresholdMs s.sym.pendingMarkMs then
      let s1 := wpmUpdate s s.sym.pendingMarkMs
      pushPulse s1 (s1.sym.pendingMarkMs.div s1.sym.unitTimeMs)
    else .ok { s with sym := foldGlitch s.sym }
  else .ok s

/-- The pulse buffer handed to the decoder as one character step, then cleared; an empty one is not
handed over (R1004, R1006). -/
def decodeBuffer (s : State) : State :=
  if s.sym.pulseBuf = [] then s
  else
    let s1 := beamStep s s.sym.pulseBuf
    { s1 with sym := { s1.sym with pulseBuf := [] } }

/-- SETTLE_GAP: a boundary steps the decoder and, past the word threshold, injects a space; a shorter
gap after a mark is appended as a pulse (R1004). -/
def settleGap (s : State) : Except FaultCode State :=
  if F64.lt (s.sym.unitTimeMs.mul s.cfg.charGapRatio) s.sym.lastGapMs then
    let s1 := decodeBuffer s
    if F64.lt (s1.sym.unitTimeMs.mul s1.cfg.wordGapRatio) s1.sym.lastGapMs then
      .ok (beamInjectSpace s1)
    else .ok s1
  else if F64.lt F64.zero s.sym.lastGapMs && decide (1 ≤ s.sym.pulseBuf.length) then
    pushPulse s (s.sym.lastGapMs.div s.sym.unitTimeMs)
  else .ok s

/-- SYM_GAP_END (R1001). -/
def symGapEnd (s : State) (duration : F64) : State :=
  { s with sym := { s.sym with lastGapMs := s.sym.lastGapMs.add duration } }

/-- The incoming mark is staged (R1005). -/
def stageMark (s : State) (duration : F64) : State :=
  { s with sym := { s.sym with pendingMarkMs := duration, lastGapMs := F64.zero } }

/-- Whether SYM_MARK_END stitches: `last_gap_ms > 0 and last_gap_ms < gl`, both strict (R1002). -/
def stitches (s : State) : Bool :=
  F64.lt F64.zero s.sym.lastGapMs && F64.lt s.sym.lastGapMs s.cfg.glitchThresholdMs

/-- SYM_MARK_END: glitch stitching, or settle the pending mark and the gap and stage the new mark
(R1002). -/
def symMarkEnd (s : State) (duration : F64) : Except FaultCode State :=
  if stitches s then
    .ok { s with sym := { s.sym with
      pendingMarkMs := s.sym.pendingMarkMs.add (s.sym.lastGapMs.add duration),
      lastGapMs := F64.zero } }
  else
    match settleMark s with
    | .error c => .error c
    | .ok s1 =>
      match settleGap s1 with
      | .error c => .error c
      | .ok s2 => .ok (stageMark s2 duration)

/-- SYM_FLUSH, `check_timeout` (R1006). -/
def symFlush (s : State) : Except FaultCode State :=
  if F64.lt F64.zero s.sym.pendingMarkMs then
    match settleMark s with
    | .error c => .error c
    | .ok s1 =>
      .ok (decodeBuffer { s1 with sym := { s1.sym with pendingMarkMs := F64.zero } })
  else .ok s

/-- SYM_GAP_END by itself: `x` = duration. -/
def execSymGapEnd (s : State) : Host.Outcome State Fault Refusal := .next (symGapEnd s s.args.x)

/-- SYM_MARK_END by itself: `x` = duration. -/
def execSymMarkEnd (s : State) : Host.Outcome State Fault Refusal :=
  runMicroOp (symMarkEnd s s.args.x) s

/-- SYM_FLUSH by itself: no operand. -/
def execSymFlush (s : State) : Host.Outcome State Fault Refusal := runMicroOp (symFlush s) s

/-- WPM_UPDATE by itself: `x` = d. -/
def execWpmUpdate (s : State) : Host.Outcome State Fault Refusal := .next (wpmUpdate s s.args.x)

/-- SETTLE_MARK by itself: no operand. -/
def execSettleMark (s : State) : Host.Outcome State Fault Refusal := runMicroOp (settleMark s) s

/-- SETTLE_GAP by itself: no operand. -/
def execSettleGap (s : State) : Host.Outcome State Fault Refusal := runMicroOp (settleGap s) s

end Sys2Proof.Machine
end

