-- ==== Sys2Proof/Machine/Threshold.lean ====
section
/-! DEFINITION. downsampler_and_ring_buffer, percentile_threshold_estimator and the adaptive thresholder
(spec/44_threshold_estimation.md): HIST_PUSH, HIST_SUGGEST, PCT_TO_HL, ATH_UPDATE. -/

namespace Sys2Proof.Machine

/-- HIST_PUSH: one sample in `ds_factor` is stored; the result says whether this one was (R800). -/
def histPush (c : Cfg) (t : Thresh) (e : F64) : Thresh × Bool :=
  if t.dsCount + 1 = c.dsFactor then
    ({ t with dsCount := 0, hist := ringWrite c.histCapacity t.hist e }, true)
  else ({ t with dsCount := t.dsCount + 1 }, false)

/-- The percentile `v[min(floor(p * n), n - 1)]` of sorted values (R802). -/
def percentile (v : List F64) (n : Nat) (p : F64) : F64 :=
  elemAt v (Nat.min (F64.floor (p.mul (F64.ofNat n))) (n - 1))

/-- The squelch condition `peak < 1.5 * noise or peak <= noise` (R802). -/
def squelched (peak noise : F64) : Bool :=
  F64.lt peak (F64.oneAndHalf.mul noise) || F64.le peak noise

/-- The value of HIST_SUGGEST (R802). -/
def suggestion (c : Cfg) (t : Thresh) : Suggestion :=
  let v := sortAsc (ringChrono c.histCapacity t.hist)
  let noise := percentile v t.hist.fill F64.tenth
  let peak := percentile v t.hist.fill F64.p95
  if squelched peak noise then ⟨F64.three.mul noise, peak, noise, true⟩
  else ⟨noise.add (F64.fifth.mul (peak.sub noise)), peak, noise, false⟩

/-- HIST_SUGGEST: the value, and the count of a squelch (R802). -/
def histSuggest (s : State) : State × Suggestion :=
  let r := suggestion s.cfg s.thr
  (if r.squelch then countSquelch s else s, r)

/-- PCT_TO_HL: (high, low) (R803). -/
def pctToHl (r : Suggestion) : F64 × F64 :=
  if r.squelch then (r.thr, r.thr)
  else
    let h := F64.twentieth.mul (r.peak.sub r.noise)
    (r.thr.add h, r.thr.sub h)

/-- The levels of ATH_UPDATE after one envelope, with the safety clamp (R804). -/
def athLevels (d : F64) (t : Thresh) (e : F64) : Thresh :=
  let mx := if F64.lt t.athMax e then e else t.athMax.mul d
  let mn := if F64.lt e t.athMin then e
    else t.athMin.add ((mx.sub t.athMin).mul (F64.one.sub d))
  { t with athMax := mx, athMin := if F64.lt mx mn then mx else mn }

/-- ATH_UPDATE: the levels, then the sentinel (10, 9) with a counted squelch, or the centred pair
(R804). -/
def athUpdate (s : State) (e : F64) : State × F64 × F64 :=
  let t := athLevels s.cfg.athDecay s.thr e
  let s1 := { s with thr := t }
  let r := t.athMax.sub t.athMin
  if F64.lt r s.cfg.athMinRange then (countSquelch s1, F64.ten, F64.nine)
  else
    let c := t.athMin.add (F64.half.mul r)
    let h := F64.twentieth.mul r
    (s1, c.add h, c.sub h)

/-- The pair written to `S.th_high`, `S.th_low` (R403, R142). -/
def setThresholds (h l : F64) (s : State) : State :=
  { s with thr := { s.thr with high := h, low := l } }

/-- The threshold half of ENV_STAGE: the operations of the configured strategy only (R403, R805). -/
def thresholdStage (s : State) (e : F64) : State :=
  match s.cfg.thresholdStrategy with
  | .percentile =>
    let r := histPush s.cfg s.thr e
    let s1 := { s with thr := r.1 }
    if r.2 then
      let g := histSuggest s1
      let hl := pctToHl g.2
      setThresholds hl.1 hl.2 g.1
    else s1
  | .adaptive =>
    let r := athUpdate s e
    setThresholds r.2.1 r.2.2 r.1

/-- HIST_PUSH by itself: `x` = e; the result says whether it was stored. -/
def execHistPush (s : State) : Host.Outcome State Fault Refusal :=
  let r := histPush s.cfg s.thr s.args.x
  .next (setRet (.bool r.2) { s with thr := r.1 })

/-- HIST_SUGGEST by itself: no operand. -/
def execHistSuggest (s : State) : Host.Outcome State Fault Refusal :=
  let r := histSuggest s
  .next (setRet (.suggestion r.2) r.1)

/-- PCT_TO_HL by itself: the suggestion in the latch; the pair (high, low). -/
def execPctToHl (s : State) : Host.Outcome State Fault Refusal :=
  let hl := pctToHl (latchedSuggestion s)
  .next (setRet (.pair hl.1 hl.2) s)

/-- ATH_UPDATE by itself: `x` = e; the pair (high, low). -/
def execAthUpdate (s : State) : Host.Outcome State Fault Refusal :=
  let r := athUpdate s s.args.x
  .next (setRet (.pair r.2.1 r.2.2) r.1)

end Sys2Proof.Machine
end

