-- ==== Sys2Proof/Machine/Pipeline.lean ====
section
/-! DEFINITION. The orchestration micro-operations of spec/40_pipeline_commands.md: EMIT_TEXT, SYMBOL_STAGE,
ENV_STAGE, MON_ENQUEUE, FREQ_POLL, and the runs of the monitor inside CHUNK_END (R421). -/

namespace Sys2Proof.Machine

/-- The fragment of EMIT_TEXT: the suffix after `last` where `b` extends it, else the whole of `b`
(R420). -/
def fragmentOf (last b : Text) : Text := if last.isPrefixOf b then b.drop last.length else b

/-- EMIT_TEXT: the difference to the last emission goes to the output port; no empty fragment does
(R420). -/
def emitText (d : Decoder) : Decoder :=
  let b := beamGetResult d
  if b = d.lastEmitted then d
  else
    let frag := fragmentOf d.lastEmitted b
    { d with out := if frag = [] then d.out else d.out ++ [frag], lastEmitted := b }

/-- The state after EMIT_TEXT (R420). -/
def emit (s : State) : State := { s with dec := emitText s.dec }

/-- SYMBOL_STAGE: `finished_state` names the state that ended (R414). -/
def symbolStage (s : State) (ev : Transition) : Except FaultCode State :=
  if ev.finished then
    match symMarkEnd s ev.durationMs with
    | .error c => .error c
    | .ok s1 => .ok (emit s1)
  else .ok (emit (symGapEnd s ev.durationMs))

/-- ENV_STAGE: the thresholds by the configured strategy, then the trigger on the same sample, then the
symbol stage on an event (R403, D61). -/
def envStage (s : State) (e : F64) : Except FaultCode State :=
  let s1 := thresholdStage s e
  match trigStep s1.cfg s1.trig e s1.thr.high s1.thr.low with
  | .error c => .error c
  | .ok (t, none) => .ok { s1 with trig := t }
  | .ok (t, some ev) => symbolStage { s1 with trig := t } ev

/-- MON_ENQUEUE: nothing when cancelled; a full queue drops the new chunk and counts it (R410). -/
def monEnqueue (s : State) (chunk : List F64) : State :=
  if s.link.cancelled then s
  else if s.cfg.monQueueCapacity ≤ s.link.queue.length then countChunkDropped s
  else { s with link := { s.link with queue := s.link.queue ++ [chunk] } }

/-- FREQ_POLL: the slot's value, and the slot empty (R411). -/
def freqPoll (l : Link) : Link × Option F64 := ({ l with freqSlot := none }, l.freqSlot)

/-- The first loop of REFERENCE_MONITOR_RUN: MON_DEQUEUE while the queue is non-empty, here as many times
as the queue is long (R421). -/
def drainQueue : Nat → State → State
  | 0, s => s
  | n + 1, s => drainQueue n (monDequeue s)

/-- The second loop of REFERENCE_MONITOR_RUN, `n` times: the tick account is charged, then MON_TICK
(R421). -/
def runTicks : Nat → State → State
  | 0, s => s
  | n + 1, s => runTicks n (monTick (chargeTick s))

/-- REFERENCE_MONITOR_RUN (R421): with `tick_samples >= 1`, the second loop runs
`mon_since_tick / tick_samples` times. -/
def referenceRun (s : State) : State :=
  let s1 := drainQueue s.link.queue.length s
  runTicks (s1.mon.sinceTick.toNat / s1.cfg.tickSamples) s1

/-- EMIT_TEXT by itself: no operand. -/
def execEmitText (s : State) : Host.Outcome State Fault Refusal := .next (emit s)

/-- SYMBOL_STAGE by itself: the transition in the latch. -/
def execSymbolStage (s : State) : Host.Outcome State Fault Refusal :=
  runMicroOp (symbolStage s (latchedTransition s)) s

/-- ENV_STAGE by itself: `x` = e. -/
def execEnvStage (s : State) : Host.Outcome State Fault Refusal :=
  runMicroOp (envStage s s.args.x) s

/-- MON_ENQUEUE by itself: `vec` = c. -/
def execMonEnqueue (s : State) : Host.Outcome State Fault Refusal :=
  .next (monEnqueue s s.args.vec)

/-- FREQ_POLL by itself: no operand. -/
def execFreqPoll (s : State) : Host.Outcome State Fault Refusal :=
  let r := freqPoll s.link
  .next (setRet (.freq r.2) { s with link := r.1 })

end Sys2Proof.Machine
end

