-- ==== Sys2Proof/Machine/Construction.lean ====
section
/-! DEFINITION. What RESET does with its record (spec/40_pipeline_commands.md R406): the checks of
spec/00_scope.md R7 in the order of spec/60_exceptions.md R1211, the derived registers of
spec/70_reset_and_hazards.md R1302, and the reset values of R1301. -/

namespace Sys2Proof.Machine

/-- Finite and above 0.0. -/
def posFinite (v : F64) : Bool := v.isFinite && F64.lt F64.zero v

/-- Finite and at least 0.0. -/
def nonNegFinite (v : F64) : Bool := v.isFinite && F64.le F64.zero v

/-- A power of two in 16..65536 (R7 `fft_size`). -/
def fftSizeOk (n : Nat) : Bool := decide (16 ≤ n ∧ n ≤ 65536) && decide (2 ^ Nat.log2 n = n)

/-- `filter_order` is even and at least 2 (R506, R1201). -/
def filterOrderOk (n : Nat) : Bool := decide (n % 2 = 0 ∧ 2 ≤ n)

/-- `fs` is finite and in [200, 768000] (R1202); an `fs` not supplied is not (log entry 5). -/
def sampleRateOk (fs : Option F64) : Bool :=
  match fs with
  | some v => v.isFinite && F64.le F64.twoHundred v && F64.le v F64.maxRate
  | none => false

/-- The overlap of a record: as supplied, else `N/2` (R7, log entry 25). -/
def CfgRecord.overlapOf (r : CfgRecord) : Nat := r.overlap.getD (r.fftSize / 2)

/-- `max(1, floor(v))` (R800, R801, R712). -/
def sizeOf (v : F64) : Nat := Nat.max 1 (F64.floor v)

/-- The registers for a record whose OPEN fields are supplied (an OPEN field without a value is refused
before, R1204), with the derived ones of R1302. -/
def CfgRecord.registers (r : CfgRecord) : Cfg :=
  let fs := r.fs.getD F64.zero
  let hop := r.fftSize - r.overlapOf
  { fs := fs
    targetFreqHz := r.targetFreqHz.getD F64.zero
    monitorEnabled := r.monitorEnabled.getD false
    fftSize := r.fftSize
    overlap := r.overlapOf
    updateIntervalMs := r.updateIntervalMs
    minFreqHz := r.minFreqHz.getD F64.zero
    maxFreqHz := r.maxFreqHz.getD F64.zero
    requiredSnr := r.requiredSnr.getD F64.zero
    alphaBase := r.alphaBase.getD F64.zero
    alphaGain := r.alphaGain.getD F64.zero
    alphaMax := r.alphaMax.getD F64.zero
    noiseFloorMin := r.noiseFloorMin
    peakPowerMin := r.peakPowerMin
    monQueueCapacity := r.monQueueCapacity.getD 0
    filterOrder := r.filterOrder
    filterBwHz := r.filterBwHz
    afcEnabled := r.afcEnabled.getD false
    afcGain := r.afcGain
    afcGate := r.afcGate
    afcMinConsecutive := r.afcMinConsecutive
    afcDeadbandHz := r.afcDeadbandHz
    afcRangeHz := r.afcRangeHz
    afcPolarity := r.afcPolarity
    retuneHysteresisHz := r.retuneHysteresisHz
    thresholdStrategy := r.thresholdStrategy
    histDownsampleRate := r.histDownsampleRate
    histWindowSeconds := r.histWindowSeconds
    pctHystFrac := r.pctHystFrac
    athDecay := r.athDecay
    athMinRange := r.athMinRange.getD F64.zero
    debounceMs := r.debounceMs
    initialWpm := r.initialWpm
    glitchThresholdMs := r.glitchThresholdMs.getD F64.zero
    charGapRatio := r.charGapRatio
    wordGapRatio := r.wordGapRatio
    wpmUpdateAlpha := r.wpmUpdateAlpha.getD F64.zero
    statsWindowSize := r.statsWindowSize.getD 0
    beamWidth := r.beamWidth
    pruneThreshold := r.pruneThreshold
    lm := r.lm.getD []
    fc := cutoffOf r.filterBwHz fs
    hop := hop
    monRingLen := r.fftSize + 3 * hop
    dsFactor := sizeOf (fs.div r.histDownsampleRate)
    histCapacity := sizeOf (r.histWindowSeconds.mul r.histDownsampleRate)
    debounceCount := (r.debounceMs.mul fs).div F64.thousand
    tickSamples := sizeOf ((r.updateIntervalMs.mul fs).div F64.thousand) }

/-- Every OPEN field but `fs` and `lm` has a value (R1204). -/
def CfgRecord.openSupplied (r : CfgRecord) : Bool :=
  r.targetFreqHz.isSome && r.monitorEnabled.isSome && r.minFreqHz.isSome && r.maxFreqHz.isSome &&
  r.requiredSnr.isSome && r.alphaBase.isSome && r.alphaGain.isSome && r.alphaMax.isSome &&
  r.monQueueCapacity.isSome && r.afcEnabled.isSome && r.athMinRange.isSome &&
  r.glitchThresholdMs.isSome && r.wpmUpdateAlpha.isSome && r.statsWindowSize.isSome

/-- The constraints of R7 on the monitor's fields. -/
def monitorParamsOk (c : Cfg) : Bool :=
  fftSizeOk c.fftSize && decide (c.overlap < c.fftSize) && posFinite c.updateIntervalMs &&
  F64.le F64.zero c.minFreqHz && F64.lt c.minFreqHz c.maxFreqHz &&
  F64.lt c.maxFreqHz (c.fs.div F64.two) &&
  c.requiredSnr.isFinite && F64.le F64.one c.requiredSnr &&
  F64.le F64.zero c.alphaBase && F64.le F64.zero c.alphaGain &&
  F64.lt F64.zero c.alphaMax && F64.le c.alphaMax F64.one &&
  decide (c.noiseFloorMin = F64.billionth) && decide (c.peakPowerMin = F64.thousandth) &&
  decide (1 ≤ c.monQueueCapacity)

/-- The constraints of R7 on the demodulator's fields. -/
def demodParamsOk (c : Cfg) : Bool :=
  c.targetFreqHz.isFinite && F64.lt F64.zero c.targetFreqHz &&
  F64.le c.targetFreqHz (F64.nyquistFrac.mul c.fs) &&
  posFinite c.filterBwHz && nonNegFinite c.afcGain && nonNegFinite c.afcGate &&
  decide (1 ≤ c.afcMinConsecutive) && nonNegFinite c.afcDeadbandHz && nonNegFinite c.afcRangeHz &&
  (decide (c.afcPolarity = F64.negOne) || decide (c.afcPolarity = F64.one)) &&
  decide (c.retuneHysteresisHz = F64.five)

/-- The constraints of R7 on the thresholders' and the trigger's fields. -/
def thresholdParamsOk (c : Cfg) : Bool :=
  posFinite c.histDownsampleRate && posFinite c.histWindowSeconds &&
  decide (c.pctHystFrac = F64.twentieth) &&
  F64.lt F64.zero c.athDecay && F64.lt c.athDecay F64.one &&
  posFinite c.athMinRange && nonNegFinite c.debounceMs

/-- The constraints of R7 on the symbol buffer's and the decoder's fields. -/
def symbolParamsOk (c : Cfg) : Bool :=
  c.initialWpm.isFinite && F64.lt F64.zero c.initialWpm && F64.le c.initialWpm F64.oneTwenty &&
  posFinite c.glitchThresholdMs && posFinite c.charGapRatio &&
  c.wordGapRatio.isFinite && F64.le c.charGapRatio c.wordGapRatio &&
  c.wpmUpdateAlpha.isFinite && F64.lt F64.zero c.wpmUpdateAlpha &&
  F64.le c.wpmUpdateAlpha F64.one &&
  decide (4 ≤ c.statsWindowSize ∧ c.statsWindowSize ≤ 20) &&
  decide (1 ≤ c.beamWidth) && nonNegFinite c.pruneThreshold

/-- Every field but `filter_order`, `fs` and `lm` meets its constraint (R7, R1204). -/
def paramsOk (r : CfgRecord) : Bool :=
  r.openSupplied && monitorParamsOk r.registers && demodParamsOk r.registers &&
  thresholdParamsOk r.registers && symbolParamsOk r.registers

/-- RESET's checks, the first failure reported (R406, R1211); the accepted language model. -/
def validate (r : CfgRecord) : Except FaultCode LangModel :=
  if !filterOrderOk r.filterOrder then .error .cfgFilterOrder
  else if !sampleRateOk r.fs then .error .cfgSampleRate
  else if !paramsOk r then .error .cfgParam
  else lmLoad r.lm

/-- The demodulator after RESET, filters designed (R1301, R503). -/
def resetDemod (c : Cfg) : Demod :=
  { lpfI := designCascade c.filterOrder c.fs c.fc
    lpfQ := designCascade c.filterOrder c.fs c.fc
    phi := F64.zero
    f0 := c.targetFreqHz
    afcPrevPhase := F64.zero
    afcCount := 0
    afcFreq := c.targetFreqHz
    afcPhaseInc := phaseIncOf c.targetFreqHz c.fs }

/-- The state that a successful RESET builds from the registers and the language model (R1301): every
element of the table; `S.pc`, the ports and the model's own fields are kept. -/
def construct (c : Cfg) (m : LangModel) (s : State) : State :=
  leaveFault
    { s with
      cfg := c
      adv := ⟨0, 0, 0, 0⟩
      demod := resetDemod c
      mon := { ring := Ring.empty c.monRingLen, fsmooth := F64.zero, locked := false, sinceTick := 0 }
      link := { queue := [], chunkAcc := [], freqSlot := none, cancelled := false }
      thr := { dsCount := 0, hist := Ring.empty c.histCapacity, athMax := F64.zero,
               athMin := F64.zero, high := F64.ten, low := F64.nine }
      trig := { current := false, stateStart := 0, total := 0, pending := false, changeStart := 0 }
      sym := { pendingMarkMs := F64.zero, lastGapMs := F64.zero,
               unitTimeMs := F64.twelveHundred.div c.initialWpm, pulseBuf := [],
               stats := Ring.empty c.statsWindowSize }
      dec := { paths := [Path.initial], lm := m, lastEmitted := [], out := [] } }

end Sys2Proof.Machine
end

