-- ==== Sys2Proof/Machine/Commands.lean ====
section
/-! DEFINITION. The ten host commands (spec/40_pipeline_commands.md R401 to R413), each the rule of the
command under the acceptance of R400. -/

namespace Sys2Proof.Machine

/-- The sample enters the chunk accumulator while the monitor is enabled (R402); a fixed
`chunk_capacity` that would be exceeded faults (R207, R1208). -/
def pushSample (s : State) (v : F64) : Except FaultCode State :=
  if s.cfg.monitorEnabled then
    match s.params.chunkCapacity with
    | some cap =>
      if cap < s.link.chunkAcc.length + 1 then .error .counterOverflow
      else .ok { s with link := { s.link with chunkAcc := s.link.chunkAcc ++ [v] } }
    | none => .ok { s with link := { s.link with chunkAcc := s.link.chunkAcc ++ [v] } }
  else .ok s

/-- The rule of SAMPLE (R402). -/
def sampleBody (p : F32) (s : State) : Except FaultCode State :=
  if !sampleInRange p then .error .inputRange
  else
    match pushSample s (payload p) with
    | .error c => .error c
    | .ok s1 =>
      let r := sdrStep s1.cfg s1.demod (payload p)
      envStage { s1 with demod := r.1 } r.2

/-- The retune of CHUNK_END by a polled frequency (R404). -/
def retuneByPoll (s : State) : State :=
  let r := freqPoll s.link
  let s1 := { s with link := r.1 }
  match r.2 with
  | some f => { s1 with demod := sdrRetune s1.cfg s1.demod f }
  | none => s1

/-- The rule of CHUNK_END (R404), as a whole one step of the block (R212, R224): no monitor step falls
inside it, and under REFERENCE the run of R421 at the marked point is part of the command. -/
def chunkEndBody (s : State) : State :=
  if s.cfg.monitorEnabled then
    let s1 := monEnqueue s s.link.chunkAcc
    let s2 := { s1 with link := { s1.link with chunkAcc := [] } }
    retuneByPoll (if s2.params.schedule = .reference then referenceRun s2 else s2)
  else s

/-- The rule of FLUSH (R405); a held partial word is discarded (R211). -/
def flushBody (s : State) : Except FaultCode State :=
  match symFlush s with
  | .error c => .error c
  | .ok s1 =>
    let s2 := emit s1
    .ok (dropPartialWord
      { s2 with link := { queue := [], chunkAcc := [], freqSlot := none, cancelled := true },
                life := .flushed })

/-- The rule of RESET on a record (R406); a held partial word is discarded on success (R211, log
entry 3). -/
def resetBody (r : CfgRecord) (s : State) : Except FaultCode State :=
  match validate r with
  | .error c => .error c
  | .ok m => .ok (dropPartialWord (construct r.registers m s))

/-- The rule of INJECT_ENV (R409). The chunk accumulator is not touched, so `chunk_capacity` is never
exceeded here, although R1214 lists INJECT_ENV under each of the three bounds (DEDUCED, log entry 35). -/
def injectEnvBody (p : F32) (s : State) : Except FaultCode State :=
  if !nonNegInRange p then .error .inputRange else envStage s (payload p)

/-- The rule of INJECT_TRANSITION (R412). -/
def injectTransitionBody (f : Bool) (p : F32) (s : State) : Except FaultCode State :=
  if !nonNegInRange p then .error .inputRange else symbolStage s ⟨f, payload p⟩

/-- The rule of SET_TARGET_FREQ (R413). -/
def setTargetFreqBody (p : F32) (s : State) : Except FaultCode State :=
  if !freqInRange s.cfg.fs p then .error .inputRange
  else .ok { s with demod := sdrRetune s.cfg s.demod (payload p) }

/-- NOP (R401). -/
def execNop (s : State) : Host.Outcome State Fault Refusal := runCommand 0x00 .ok s

/-- SAMPLE (R402). -/
def execSample (p : F32) (s : State) : Host.Outcome State Fault Refusal :=
  runCommand 0x01 (sampleBody p) s

/-- CHUNK_END (R404). -/
def execChunkEnd (s : State) : Host.Outcome State Fault Refusal :=
  runCommand 0x02 (fun t => .ok (chunkEndBody t)) s

/-- FLUSH (R405). -/
def execFlush (s : State) : Host.Outcome State Fault Refusal := runCommand 0x03 flushBody s

/-- RESET (R406): its record is taken from the configuration input, whether or not it is accepted (log
entry 4). -/
def execReset (s : State) : Host.Outcome State Fault Refusal :=
  runCommand 0x04 (resetBody (nextRecord s)) (takeRecord s)

/-- READ_RESULT (R407). -/
def execReadResult (s : State) : Host.Outcome State Fault Refusal :=
  runCommand 0x05 (fun t => .ok (respond (.result (beamGetResult t.dec)) t)) s

/-- READ_STATUS (R408): the words show `S.pc` before the increment. -/
def execReadStatus (s : State) : Host.Outcome State Fault Refusal :=
  runCommand 0x06 (fun t => .ok (respond (.status (statusWords t)) t)) s

/-- INJECT_ENV (R409). -/
def execInjectEnv (p : F32) (s : State) : Host.Outcome State Fault Refusal :=
  runCommand 0x07 (injectEnvBody p) s

/-- INJECT_TRANSITION (R412). -/
def execInjectTransition (f : Bool) (p : F32) (s : State) : Host.Outcome State Fault Refusal :=
  runCommand 0x08 (injectTransitionBody f p) s

/-- SET_TARGET_FREQ (R413). -/
def execSetTargetFreq (p : F32) (s : State) : Host.Outcome State Fault Refusal :=
  runCommand 0x09 (setTargetFreqBody p) s

end Sys2Proof.Machine
end

