-- ==== Sys2Proof/Machine/Dispatch.lean ====
section
/-! DEFINITION. The dispatch: one arm per constructor of `Instr`, each a direct call of its meaning. -/

namespace Sys2Proof.Machine

/-- What an instruction does in a state. -/
def exec (i : Instr) (s : State) : Host.Outcome State Fault Refusal :=
  match i with
  | .nop => Sys2Proof.Machine.execNop s
  | .sample p => Sys2Proof.Machine.execSample p s
  | .chunkEnd => Sys2Proof.Machine.execChunkEnd s
  | .flush => Sys2Proof.Machine.execFlush s
  | .reset => Sys2Proof.Machine.execReset s
  | .readResult => Sys2Proof.Machine.execReadResult s
  | .readStatus => Sys2Proof.Machine.execReadStatus s
  | .injectEnv p => Sys2Proof.Machine.execInjectEnv p s
  | .injectTransition f p => Sys2Proof.Machine.execInjectTransition f p s
  | .setTargetFreq p => Sys2Proof.Machine.execSetTargetFreq p s
  | .biquadStep => Sys2Proof.Machine.execBiquadStep s
  | .lpfCascadeStep => Sys2Proof.Machine.execLpfCascadeStep s
  | .loGen => Sys2Proof.Machine.execLoGen s
  | .iqMix => Sys2Proof.Machine.execIqMix s
  | .envelope => Sys2Proof.Machine.execEnvelope s
  | .afcUpdate => Sys2Proof.Machine.execAfcUpdate s
  | .phaseAdvance => Sys2Proof.Machine.execPhaseAdvance s
  | .sdrRetune => Sys2Proof.Machine.execSdrRetune s
  | .sdrStep => Sys2Proof.Machine.execSdrStep s
  | .lpfDesign => Sys2Proof.Machine.execLpfDesign s
  | .monEnqueue => Sys2Proof.Machine.execMonEnqueue s
  | .monDequeue => Sys2Proof.Machine.execMonDequeue s
  | .monTick => Sys2Proof.Machine.execMonTick s
  | .welchPsd => Sys2Proof.Machine.execWelchPsd s
  | .noiseFloor => Sys2Proof.Machine.execNoiseFloor s
  | .peakSearch => Sys2Proof.Machine.execPeakSearch s
  | .parabolicRefine => Sys2Proof.Machine.execParabolicRefine s
  | .acceptAndSmooth => Sys2Proof.Machine.execAcceptAndSmooth s
  | .freqPoll => Sys2Proof.Machine.execFreqPoll s
  | .histPush => Sys2Proof.Machine.execHistPush s
  | .histSuggest => Sys2Proof.Machine.execHistSuggest s
  | .pctToHl => Sys2Proof.Machine.execPctToHl s
  | .athUpdate => Sys2Proof.Machine.execAthUpdate s
  | .schmittRaw => Sys2Proof.Machine.execSchmittRaw s
  | .debounceStep => Sys2Proof.Machine.execDebounceStep s
  | .trigStep => Sys2Proof.Machine.execTrigStep s
  | .symGapEnd => Sys2Proof.Machine.execSymGapEnd s
  | .symMarkEnd => Sys2Proof.Machine.execSymMarkEnd s
  | .symFlush => Sys2Proof.Machine.execSymFlush s
  | .wpmUpdate => Sys2Proof.Machine.execWpmUpdate s
  | .statsPush => Sys2Proof.Machine.execStatsPush s
  | .statsAnalyze => Sys2Proof.Machine.execStatsAnalyze s
  | .settleMark => Sys2Proof.Machine.execSettleMark s
  | .settleGap => Sys2Proof.Machine.execSettleGap s
  | .beamStep => Sys2Proof.Machine.execBeamStep s
  | .emissionScore => Sys2Proof.Machine.execEmissionScore s
  | .lmGet => Sys2Proof.Machine.execLmGet s
  | .beamPrune => Sys2Proof.Machine.execBeamPrune s
  | .beamInjectSpace => Sys2Proof.Machine.execBeamInjectSpace s
  | .beamGetResult => Sys2Proof.Machine.execBeamGetResult s
  | .lmLoad => Sys2Proof.Machine.execLmLoad s
  | .emitText => Sys2Proof.Machine.execEmitText s
  | .envStage => Sys2Proof.Machine.execEnvStage s
  | .symbolStage => Sys2Proof.Machine.execSymbolStage s

end Sys2Proof.Machine
end

