-- ==== Sys2Proof/Machine/Step.lean ====
section
/-! DEFINITION. One step of the block: the next turn selects a host command from the port or a micro-op
(spec/40_pipeline_commands.md R400, R421, R422), and `exec` runs it. Fetching and decoding a command are
in Sys2Proof/Decode.lean, the acceptance of a word that does not decode in Sys2Proof/Machine/Ops.lean. -/

namespace Sys2Proof.Machine

/-- A host command step (R400): the first whole word of the port is taken and executed; while the port
holds no whole word the block waits and nothing changes (R211, R1219). -/
def commandStep (s : State) : Host.Outcome State Fault Refusal :=
  match takeWord s.port with
  | none => .next s
  | some (w, rest) =>
    match decodeWord w with
    | .ok i => exec i { s with port := rest }
    | .error _ => .next (illegalCommand (CmdFields.ofWord w).op { s with port := rest })

/-- One step: the next turn, or a host command when no turn is laid down (R422, log entry 9). A micro-op
turn runs in every lifecycle state; only MON_DEQUEUE and MON_TICK are gated by it, as R421 says
(DESIGN CHOICE, log entry 32). -/
def step (s : State) : Host.Outcome State Fault Refusal :=
  match s.turns with
  | [] => commandStep s
  | .command :: ts => commandStep { s with turns := ts }
  | .microOp id :: ts =>
    match decodeMicroOp id with
    | .ok i => exec i { s with turns := ts }
    | .error _ => .fault (.unassignedMicroOp id)

/-- The state whose next step runs the opcode-table row with these bits: a micro-op row as the next turn,
a command row as the next 8 bytes of the port and a command turn. -/
def State.withFetchWord (s : State) (nbits w : Nat) : State :=
  if nbits ≤ 8 then { s with turns := .microOp (BitVec.ofNat 8 w) :: s.turns }
  else { s with port := bytesOfNat 8 w ++ s.port, turns := .command :: s.turns }

end Sys2Proof.Machine
end

