-- ==== Sys2Proof/Machine/Schedule.lean ====
section
/-! DEFINITION. The executions of spec/40_pipeline_commands.md R421 and R422, apart from the list of turns:
sequences of host commands and enabled monitor steps, each atomic (spec/20_memory.md R212, R224). -/

namespace Sys2Proof.Machine

/-- The state after an outcome that goes on. -/
def nextState (o : Host.Outcome State Fault Refusal) : Option State :=
  match o with
  | .next t => some t
  | .fault _ => none
  | .refused _ => none

/-- One step of an execution (R422): one host command (R400), which needs a whole word at the port, or
one step of the monitor agent where R421 enables it; none where there is no such step. CHUNK_END is here
one command, with the run that R404 gives it under REFERENCE (log entry 33). -/
def scheduleStep (k : ScheduleStep) (s : State) : Option State :=
  match k with
  | .command => if (takeWord s.port).isSome then nextState (commandStep s) else none
  | .dequeue => if monitorEnabled s && !s.link.queue.isEmpty then some (monDequeue s) else none
  | .tick => if monitorEnabled s then some (monTick s) else none

/-- A FREE execution (R422): the steps one after the other; none where one of them is not enabled. -/
def freeExecution : List ScheduleStep → State → Option State
  | [], s => some s
  | k :: ks, s => (scheduleStep k s).bind (freeExecution ks)

/-- The turn by which the machine takes a step of an execution (log entry 9). -/
def ScheduleStep.turn (k : ScheduleStep) : Turn :=
  match k with
  | .command => .command
  | .dequeue => .microOp 0x91
  | .tick => .microOp 0x92

end Sys2Proof.Machine
end

