-- ==== Sys2Proof/Safety.lean ====
section
/-! DEFINITION. What the claims about the block speak of: a step that goes on, the forms that every step
keeps (rings, counts, trigger stamps, beam, unit time), the conditions on which a bounded pulse buffer
overflows, the trigger run over a sequence of samples, and the machine's executions. -/

namespace Sys2Proof.Machine

/-- The outcome is a next state. -/
def GoesOn (o : Host.Outcome State Fault Refusal) : Prop := ∃ t, o = .next t

/-- An instruction that the host can send: one of the ten commands (R302), not a micro-op (R303). -/
abbrev IsHostCommand (i : Instr) : Prop := i.microOpId = none

/-- The form of a ring of capacity `c` (R203): its storage has `c` elements, the fill count is at most
`c`, the write index is below `c` (a ring without storage has none). -/
abbrev RingForm (c : Nat) (r : Ring) : Prop :=
  r.buf.length = c ∧ r.fill ≤ c ∧ (r.wi < c ∨ c = 0)

/-- The three rings have their form (R130, R140, R162). -/
abbrev RingsForm (s : State) : Prop :=
  RingForm s.cfg.monRingLen s.mon.ring ∧ RingForm s.cfg.histCapacity s.thr.hist ∧
    RingForm s.cfg.statsWindowSize s.sym.stats

/-- The bounded counts (R140 `ds_count`, R122 `afc_count`, R132 the queue). -/
abbrev CountsBounded (s : State) : Prop :=
  s.thr.dsCount < s.cfg.dsFactor ∧ s.demod.afcCount ≤ s.cfg.afcMinConsecutive ∧
    s.link.queue.length ≤ s.cfg.monQueueCapacity

/-- The invariant of R150 on the trigger's stamps. -/
abbrev StampsOrdered (t : Trigger) : Prop :=
  t.stateStart.toNat ≤ t.total.toNat ∧
    (t.pending = true → t.stateStart.toNat ≤ t.changeStart.toNat ∧
      t.changeStart.toNat ≤ t.total.toNat)

/-- The beam as R1112 says it is after every operation: non-increasing scores, at most K paths, each
within the prune threshold of the first, all `last_char` values distinct. -/
abbrev BeamOrdered (k : Nat) (t : F64) (ps : List Path) : Prop :=
  ps.Pairwise (fun a b => F64.le b.score a.score = true) ∧
  ps.length ≤ k ∧
  (∀ p0, ps.head? = some p0 → ∀ p ∈ ps, F64.le (p0.score.sub t) p.score = true) ∧
  (ps.map Path.lastChar).Nodup

/-- The unit time is not below 10 ms (R1008). -/
abbrev UnitAtLeastTen (s : State) : Prop := F64.lt s.sym.unitTimeMs F64.ten = false

/-- The scores that a prune may meet when the pulse vector `sig` is decoded are numbers: those of the
paths, of the candidates, and of each of them with a space appended (R1101, R1106). -/
abbrev ScoresAreNumbers (s : State) (sig : List F64) : Prop :=
  ∀ p, p ∈ s.dec.paths ∨ p ∈ candidates s.dec.lm (stepStats s) sig s.dec.paths →
    p.score.isNaN = false ∧ (p.score.add (lmGet s.dec.lm p.lastChar ' ')).isNaN = false

/-- SAMPLE would append to an accumulator that stands at a fixed `chunk_capacity` (R207, R402). -/
abbrev ChunkFull (s : State) : Prop :=
  s.cfg.monitorEnabled = true ∧
    ∃ c, s.params.chunkCapacity = some c ∧ c ≤ s.link.chunkAcc.length

/-- A fixed `pulse_buf_capacity` has no room left (R206). -/
abbrev PulseBufFull (s : State) : Prop :=
  ∃ c, s.params.pulseBufCapacity = some c ∧ c ≤ s.sym.pulseBuf.length

/-- SETTLE_MARK would append the pulse of a real mark to a full buffer (R1003, R206). -/
abbrev MarkOverflows (s : State) : Prop :=
  F64.lt F64.zero s.sym.pendingMarkMs = true ∧
    F64.lt s.cfg.glitchThresholdMs s.sym.pendingMarkMs = true ∧ PulseBufFull s

/-- SETTLE_GAP would append the pulse of a gap that is no boundary to a full buffer (R1004, R206). -/
abbrev GapOverflows (s : State) : Prop :=
  F64.lt (s.sym.unitTimeMs.mul s.cfg.charGapRatio) s.sym.lastGapMs = false ∧
    F64.lt F64.zero s.sym.lastGapMs = true ∧ s.sym.pulseBuf ≠ [] ∧ PulseBufFull s

/-- SYM_MARK_END would exceed the capacity: it does not stitch, and the mark's pulse, or the gap's after
it, finds the buffer full (R1002). -/
abbrev MarkEndOverflows (s : State) : Prop :=
  ¬ (F64.lt F64.zero s.sym.lastGapMs = true ∧
      F64.lt s.sym.lastGapMs s.cfg.glitchThresholdMs = true) ∧
    (MarkOverflows s ∨ ∃ u, settleMark s = .ok u ∧ GapOverflows u)

/-- ENV_STAGE on the envelope `e` ends a mark: the trigger, stepped against the updated thresholds,
gives an event whose finished state is a mark (R403, R414). -/
abbrev EndsMark (s : State) (e : F64) : Prop :=
  ∃ t ev, trigStep s.cfg s.trig e (thresholdStage s e).thr.high (thresholdStage s e).thr.low
    = .ok (t, some ev) ∧ ev.finished = true

/-- TRIG_STEP on a sequence of samples (envelope, high, low): the trigger and the events in order; none
where a step faults. -/
def runTrigger (c : Cfg) : List (F64 × F64 × F64) → Trigger → Option (Trigger × List Transition)
  | [], t => some (t, [])
  | x :: xs, t =>
    match trigStep c t x.1 x.2.1 x.2.2 with
    | .error _ => none
    | .ok (t1, ev) => (runTrigger c xs t1).map fun r => (r.1, ev.toList ++ r.2)

/-- The machine run for `n` steps; none where a step stops. -/
def runSteps : Nat → State → Option State
  | 0, s => some s
  | n + 1, s =>
    match step s with
    | .next t => runSteps n t
    | .fault _ => none
    | .refused _ => none

/-- `S.mon_cancelled` is false while RUNNING: FLUSH alone sets it, and leaves RUNNING (R405). -/
abbrev NotCancelledWhileRunning (s : State) : Prop := s.life = .running → s.link.cancelled = false

/-- The turns that are laid down are host commands and monitor steps; no other micro-op runs by itself. -/
abbrev ScheduleTurns (s : State) : Prop := ∀ u ∈ s.turns, ∃ k : ScheduleStep, u = k.turn

end Sys2Proof.Machine
end

