-- ==== Sys2Proof/Certificates/Slice0/Obligations.lean ====
section
/-! DEFINITION. The statements for the provers. Each docstring names the rules of spec/ that a statement
formalises. The block has no addressed memory (R200), so a frame is the whole next state: where a
statement gives `exec i s = .next { s with … }`, every state element that is not listed is unchanged.
In the statements `F64.lt a b` is `a < b` and `F64.le a b` is `a <= b` of IEEE-754. -/

section Statements

open Sys2Proof Sys2Proof.Machine

/-! ## Encoding and decoding -/

/-- Decode and encode agree (R210, R300, R302, R303, R304): every instruction decodes from its encoding,
a host command also from its 8 bytes at the head of a stream, and an encoding that decodes is the
encoding of what it decodes to. -/
def Obligations.DecodeAndEncodeAgree : Prop :=
  (∀ i : Instr, i.wf = true → decode (encode i) = .ok i) ∧
  (∀ i : Instr, i.wf = true → IsHostCommand i →
    ∀ rest, decodeStream (encodeBytes i ++ rest) = .ok (i, rest)) ∧
  (∀ e i, decode e = .ok i → encode i = e)

/-- R304, R305: a word is ILLEGAL exactly in the five cases enumerated, on the bit fields of R300. -/
def Obligations.IllegalWordsAreThoseEnumerated : Prop :=
  ∀ w : U64,
    let op := w.toNat / 2 ^ 56
    let rsv := w.toNat / 2 ^ 33 % 2 ^ 23
    let f := w.toNat / 2 ^ 32 % 2
    let p := w.toNat % 2 ^ 32
    (∃ e, decodeWord w = .error e) ↔
      (0x0A ≤ op ∧ op ≤ 0x7F) ∨ 0x80 ≤ op ∨ rsv ≠ 0 ∨ (f ≠ 0 ∧ op ≠ 0x08) ∨
        (p ≠ 0 ∧ (op = 0x00 ∨ op = 0x02 ∨ op = 0x03 ∨ op = 0x04 ∨ op = 0x05 ∨ op = 0x06))

/-- R306: for each command, `(W & mask) == match` exactly when the word decodes to it; the operands are
`F = W[32]` and `P = W[31:0]`. -/
def Obligations.MatchAndMaskSelectTheCommand : Prop :=
  ∀ w : U64,
    (decodeWord w = .ok .nop ↔ w &&& 0xFFFFFFFFFFFFFFFF#64 = 0x0000000000000000#64) ∧
    (∀ p, decodeWord w = .ok (.sample p) ↔
      w &&& 0xFFFFFFFF00000000#64 = 0x0100000000000000#64 ∧ p.toNat = w.toNat % 2 ^ 32) ∧
    (decodeWord w = .ok .chunkEnd ↔ w &&& 0xFFFFFFFFFFFFFFFF#64 = 0x0200000000000000#64) ∧
    (decodeWord w = .ok .flush ↔ w &&& 0xFFFFFFFFFFFFFFFF#64 = 0x0300000000000000#64) ∧
    (decodeWord w = .ok .reset ↔ w &&& 0xFFFFFFFFFFFFFFFF#64 = 0x0400000000000000#64) ∧
    (decodeWord w = .ok .readResult ↔ w &&& 0xFFFFFFFFFFFFFFFF#64 = 0x0500000000000000#64) ∧
    (decodeWord w = .ok .readStatus ↔ w &&& 0xFFFFFFFFFFFFFFFF#64 = 0x0600000000000000#64) ∧
    (∀ p, decodeWord w = .ok (.injectEnv p) ↔
      w &&& 0xFFFFFFFF00000000#64 = 0x0700000000000000#64 ∧ p.toNat = w.toNat % 2 ^ 32) ∧
    (∀ f p, decodeWord w = .ok (.injectTransition f p) ↔
      w &&& 0xFFFFFFFE00000000#64 = 0x0800000000000000#64 ∧ p.toNat = w.toNat % 2 ^ 32 ∧
        f.toNat = w.toNat / 2 ^ 32 % 2) ∧
    (∀ p, decodeWord w = .ok (.setTargetFreq p) ↔
      w &&& 0xFFFFFFFF00000000#64 = 0x0900000000000000#64 ∧ p.toNat = w.toNat % 2 ^ 32)

/-- Words that the spec prints, and micro-op ids of R303, decode to what the spec says. -/
def Obligations.SpecWordsDecode : Prop :=
  decodeTableWord 64 0x010000003F000000 = some (.sample 0x3F000000) ∧
  decodeTableWord 64 0x0400000000000000 = some .reset ∧
  decodeTableWord 64 0x0800000143340000 = some (.injectTransition true 0x43340000) ∧
  decodeTableWord 64 0x0800000042700000 = some (.injectTransition false 0x42700000) ∧
  decodeTableWord 64 0x0900000044318000 = some (.setTargetFreq 0x44318000) ∧
  decodeTableWord 64 0x0100000100000000 = none ∧
  decodeTableWord 8 0x86 = some .phaseAdvance ∧
  decodeTableWord 8 0x91 = some .monDequeue ∧
  decodeTableWord 8 0xC6 = some .settleMark ∧
  decodeTableWord 8 0xE1 = some .envStage ∧
  decodeTableWord 8 0x8A = none

/-! ## The step -/

/-- A step runs the decoded instruction (R210, R211, R400, R422): a whole word at the port that decodes
to `i` is taken from the port and `i` is executed; a micro-op turn runs its micro-op. The turns are the
model's own (log entries 6 and 9). -/
def Obligations.StepRunsTheDecodedInstruction : Prop :=
  ∀ (s : State) (i : Instr),
    (∀ rest, s.turns = [] → decodeStream s.port = .ok (i, rest) →
      step s = exec i { s with port := rest }) ∧
    (∀ ts rest, s.turns = .command :: ts → decodeStream s.port = .ok (i, rest) →
      step s = exec i { s with turns := ts, port := rest }) ∧
    (∀ ts id, s.turns = .microOp id :: ts → decodeMicroOp id = .ok i →
      step s = exec i { s with turns := ts })

/-- R210, R211, R1205: with fewer than 8 bytes at the port the block waits; a word, the first byte least
significant, that does not decode is consumed and raises CMD_ILLEGAL (code 0x10) with its opcode byte
as info, but while FAULTED it is refused silently. -/
def Obligations.StepOnWordsThatDoNotDecode : Prop :=
  (∀ s : State, s.turns = [] → s.port.length < 8 → step s = .next s) ∧
  (∀ (s : State) (b0 b1 b2 b3 b4 b5 b6 b7 : Byte) (rest : List Byte), s.turns = [] →
    s.port = b0 :: b1 :: b2 :: b3 :: b4 :: b5 :: b6 :: b7 :: rest →
    (∃ e, decodeWord (b7 ++ b6 ++ b5 ++ b4 ++ b3 ++ b2 ++ b1 ++ b0) = .error e) →
    step s = .next
      (if s.life = .faulted then { s with port := rest, pc := s.pc + 1 }
       else { s with port := rest, faultCode := 0x10, faultInfo := b7.zeroExtend 32,
                     life := .faulted, pc := s.pc + 1 }))

/-- Nothing stops the block (R101, R1209; faults are states): every instruction answers a next state, and
a host command adds exactly 1 to `S.pc`; so every step answers a next state, but for a turn that names
an id R303 reserves, which is the model's fault (log entry 18). The command position of a micro-op run
by itself, unchanged or, where it faults, plus 1, is the model's choice (log entries 7 and 32). -/
def Obligations.EveryStepGoesOn : Prop :=
  (∀ i s, ∃ t, exec i s = .next t ∧
    (IsHostCommand i → t.pc = s.pc + 1) ∧
    (¬ IsHostCommand i → t.pc = s.pc ∨ (t.life = .faulted ∧ t.pc = s.pc + 1))) ∧
  (∀ s : State, (∀ id ts, s.turns = .microOp id :: ts → ∃ i, decodeMicroOp id = .ok i) →
    GoesOn (step s)) ∧
  (∀ (s : State) id ts e, s.turns = .microOp id :: ts → decodeMicroOp id = .error e →
    step s = .fault (.unassignedMicroOp id))

/-! ## Acceptance and faults -/

/-- R400, R1210, R104: while FAULTED every command but RESET changes nothing but `S.pc` (READ_STATUS also
answers); only a RESET that succeeds leaves FAULTED, and it clears the fault registers. The fault code is
sticky: while FAULTED no instruction but RESET changes the recorded code and info, a micro-op run by
itself included (log entry 32), and a step that changes them took a RESET from the port. -/
def Obligations.FaultedIsLeftOnlyByReset : Prop :=
  (∀ (i : Instr) (s : State), IsHostCommand i → i ≠ .reset → i ≠ .readStatus →
    s.life = .faulted → exec i s = .next { s with pc := s.pc + 1 }) ∧
  (∀ s t : State, s.life = .faulted → step s = .next t → t.life ≠ .faulted →
    ∃ rest, decodeStream s.port = .ok (.reset, rest) ∧ t.life = .running ∧
      t.faultCode = 0 ∧ t.faultInfo = 0) ∧
  (∀ (i : Instr) (s t : State), i ≠ .reset → s.life = .faulted → exec i s = .next t →
    t.life = .faulted ∧ t.faultCode = s.faultCode ∧ t.faultInfo = s.faultInfo) ∧
  (∀ s t : State, s.life = .faulted → step s = .next t →
    t.faultCode ≠ s.faultCode ∨ t.faultInfo ≠ s.faultInfo →
    ∃ rest, decodeStream s.port = .ok (.reset, rest))

/-- R400, R1206: a well-formed command that UNCONFIGURED or FLUSHED does not admit raises CMD_STATE (code
0x11) with its opcode as info. -/
def Obligations.CommandNotAdmittedFaults : Prop :=
  ∀ (i : Instr) (c : CmdFields) (s : State), i.fields = some c →
    ((s.life = .unconfigured ∧ i ≠ .nop ∧ i ≠ .reset ∧ i ≠ .readStatus) ∨
      (s.life = .flushed ∧ i ≠ .nop ∧ i ≠ .reset ∧ i ≠ .readResult ∧ i ≠ .readStatus)) →
    exec i s = .next { s with faultCode := 0x11, faultInfo := c.op.zeroExtend 32, life := .faulted,
                              pc := s.pc + 1 }

/-- R401, R407, R408, R1213: NOP changes nothing but `S.pc`; READ_STATUS answers the six words, in every
lifecycle state; READ_RESULT answers the best sentence, in RUNNING and FLUSHED. -/
def Obligations.NopAndReads : Prop :=
  (∀ s : State, exec .nop s = .next { s with pc := s.pc + 1 }) ∧
  (∀ s : State, exec .readStatus s = .next
    { s with
      resp := s.resp ++ [.status
        [BitVec.ofNat 64 (s.faultCode.toNat
            + 2 ^ 8 * (match s.life with
                | .unconfigured => 0 | .running => 1 | .flushed => 2 | .faulted => 3)
            + 2 ^ 32 * s.faultInfo.toNat),
         s.adv.chunkDropped, s.adv.unitReset, s.adv.decoderStarved, s.adv.squelch, s.pc]]
      pc := s.pc + 1 }) ∧
  (∀ (s : State) (p : Path) (ps : List Path), s.life = .running ∨ s.life = .flushed →
    s.dec.paths = p :: ps →
    exec .readResult s = .next
      { s with resp := s.resp ++ [.result p.sentence], pc := s.pc + 1 })

/-- R1207, R402, R409, R412, R413: an admitted command whose payload is out of range raises INPUT_RANGE
(code 0x12) with its opcode as info, and nothing else changes. -/
def Obligations.InputRangeFaults : Prop :=
  ∀ (s : State) (p : F32), s.life = .running →
    (((F64.ofF32 p).isFinite = false ∨ F64.lt F64.one (F64.ofF32 p).abs = true) →
      exec (.sample p) s = .next { s with faultCode := 0x12, faultInfo := 0x01, life := .faulted,
                                          pc := s.pc + 1 }) ∧
    (((F64.ofF32 p).isFinite = false ∨ F64.lt (F64.ofF32 p) F64.zero = true) →
      exec (.injectEnv p) s = .next { s with faultCode := 0x12, faultInfo := 0x07, life := .faulted,
                                             pc := s.pc + 1 }) ∧
    (((F64.ofF32 p).isFinite = false ∨ F64.lt (F64.ofF32 p) F64.zero = true) →
      ∀ f, exec (.injectTransition f p) s =
        .next { s with faultCode := 0x12, faultInfo := 0x08, life := .faulted, pc := s.pc + 1 }) ∧
    (((F64.ofF32 p).isFinite = false ∨ F64.le (F64.ofF32 p) F64.zero = true ∨
        F64.le (s.cfg.fs.div F64.two) (F64.ofF32 p) = true) →
      exec (.setTargetFreq p) s =
        .next { s with faultCode := 0x12, faultInfo := 0x09, life := .faulted, pc := s.pc + 1 })

/-- R1208, R206, R207, R1211: COUNTER_OVERFLOW (code 0x13) with the opcode as info, and nothing else
changed, where `total_samples` would pass 2^64 - 1 (SAMPLE, INJECT_ENV), a fixed `chunk_capacity` would
be exceeded (SAMPLE), or a fixed `pulse_buf_capacity` would be by the pulse of a settled mark or of a gap
that is no boundary: in INJECT_TRANSITION, in SAMPLE and INJECT_ENV through an event that ends a mark, and
in FLUSH (log entry 20, the model's reading). INJECT_ENV does not fault through `chunk_capacity` (log
entry 35, the model's reading). A micro-op run by itself faults on the same conditions, with
the latch's opcode as info (log entry 7, the model's choice), but while FAULTED, where it changes nothing
(R104, R1210). -/
def Obligations.CounterOverflowFaults : Prop :=
  ∀ s : State,
    let fault : BitVec 8 → Host.Outcome State Fault Refusal := fun op =>
      .next { s with faultCode := 0x13, faultInfo := op.zeroExtend 32, life := .faulted,
                     pc := s.pc + 1 }
    let microFault : Host.Outcome State Fault Refusal :=
      if s.life = .faulted then .next s else fault s.args.op
    (∀ p : F32, s.life = .running → (F64.ofF32 p).isFinite = true →
      F64.lt (F64.ofF32 p) F64.zero = false →
      (s.trig.total = BitVec.allOnes 64 → exec (.injectEnv p) s = fault 0x07) ∧
      (EndsMark s (F64.ofF32 p) → MarkEndOverflows s → exec (.injectEnv p) s = fault 0x07) ∧
      (MarkEndOverflows s → exec (.injectTransition true p) s = fault 0x08)) ∧
    (∀ p : F32, s.life = .running → (F64.ofF32 p).isFinite = true →
      F64.lt F64.one (F64.ofF32 p).abs = false →
      (s.trig.total = BitVec.allOnes 64 ∨
        ChunkFull s ∨
        (EndsMark s (sdrStep s.cfg s.demod (F64.ofF32 p)).2 ∧ MarkEndOverflows s)) →
      exec (.sample p) s = fault 0x01) ∧
    (s.life = .running → MarkOverflows s → exec .flush s = fault 0x03) ∧
    (s.trig.total = BitVec.allOnes 64 →
      exec .trigStep s = microFault ∧ exec .envStage s = microFault) ∧
    (MarkOverflows s →
      exec .settleMark s = microFault ∧ exec .symFlush s = microFault) ∧
    (GapOverflows s → exec .settleGap s = microFault) ∧
    (MarkEndOverflows s →
      exec .symMarkEnd s = microFault ∧
      (s.args.flag = true → exec .symbolStage s = microFault) ∧
      (EndsMark s s.args.x → exec .envStage s = microFault))

/-- R1209, R1214: faults are precise. A host command that takes the block into FAULTED changes only the
fault registers, `S.life` and `S.pc` (RESET has taken its record, log entry 4); the code and the info
are those of the table. -/
def Obligations.FaultsArePrecise : Prop :=
  ∀ (i : Instr) (c : CmdFields) (s t : State), i.fields = some c → exec i s = .next t →
    s.life ≠ .faulted → t.life = .faulted →
    t = { s with faultCode := t.faultCode, faultInfo := t.faultInfo, life := .faulted,
                 pc := s.pc + 1, cfgIn := if i = .reset then s.cfgIn.tail else s.cfgIn } ∧
    ((i = .reset ∧ t.faultInfo = 0 ∧
        (t.faultCode = 0x01 ∨ t.faultCode = 0x02 ∨ t.faultCode = 0x03 ∨ t.faultCode = 0x04)) ∨
      (i ≠ .reset ∧ t.faultInfo = c.op.zeroExtend 32 ∧
        (t.faultCode = 0x11 ∨ t.faultCode = 0x12 ∨ t.faultCode = 0x13)))

/-! ## Host commands -/

/-- R413, R608, R609: SET_TARGET_FREQ of an admitted frequency retunes at once, unless it is within 5 Hz of
the target; the filters, the phase and the previous AFC phase are kept. -/
def Obligations.SetTargetFreqRetunes : Prop :=
  ∀ (s : State) (p : F32), s.life = .running → (F64.ofF32 p).isFinite = true →
    F64.lt F64.zero (F64.ofF32 p) = true →
    F64.lt (F64.ofF32 p) (s.cfg.fs.div F64.two) = true →
    exec (.setTargetFreq p) s = .next
      { s with
        demod :=
          if F64.lt ((F64.ofF32 p).sub s.demod.f0).abs F64.five then s.demod
          else { s.demod with f0 := F64.ofF32 p, afcFreq := F64.ofF32 p,
                              afcPhaseInc := (F64.twoPi.mul (F64.ofF32 p)).div s.cfg.fs,
                              afcCount := 0 }
        pc := s.pc + 1 }

/-- R412, R414, R1001: INJECT_TRANSITION with F = 0 adds the duration to the staged gap; with F = 1 it
runs SYM_MARK_END; then EMIT_TEXT. Nothing but the symbol buffer, the beam, the output and the
advisory counters changes. It runs wherever a fixed pulse-buffer capacity is not exceeded (R206, R1208). -/
def Obligations.InjectTransitionRuns : Prop :=
  ∀ (s : State) (p : F32), s.life = .running → (F64.ofF32 p).isFinite = true →
    F64.lt (F64.ofF32 p) F64.zero = false →
    exec (.injectTransition false p) s = .next
      { s with sym := { s.sym with lastGapMs := s.sym.lastGapMs.add (F64.ofF32 p) },
               dec := emitText s.dec, pc := s.pc + 1 } ∧
    (¬ MarkEndOverflows s →
      ∃ t, symMarkEnd s (F64.ofF32 p) = .ok t ∧
        exec (.injectTransition true p) s =
          .next { t with dec := emitText t.dec, pc := s.pc + 1 } ∧
        t = { s with sym := t.sym, dec := { s.dec with paths := t.dec.paths }, adv := t.adv })

/-- R409, R403: INJECT_ENV runs ENV_STAGE on the envelope; the demodulator, the chunk accumulator and
every element but the thresholds, the trigger, the symbol buffer, the decoder, the output and the
advisory counters are unchanged, and `total_samples` advances by 1. It runs wherever neither that counter
nor a fixed pulse-buffer capacity is exceeded (R206, R1208), at a full chunk accumulator too (log entry 35,
the model's reading). -/
def Obligations.InjectEnvRuns : Prop :=
  ∀ (s : State) (p : F32), s.life = .running → (F64.ofF32 p).isFinite = true →
    F64.lt (F64.ofF32 p) F64.zero = false → s.trig.total ≠ BitVec.allOnes 64 →
    ¬ (EndsMark s (F64.ofF32 p) ∧ MarkEndOverflows s) →
    ∃ t, envStage s (F64.ofF32 p) = .ok t ∧
      exec (.injectEnv p) s = .next { t with pc := s.pc + 1 } ∧
      t = { s with thr := t.thr, trig := t.trig, sym := t.sym, dec := t.dec, adv := t.adv } ∧
      t.dec.lm = s.dec.lm ∧ t.trig.total = s.trig.total + 1

/-- R402: SAMPLE widens the sample exactly, appends it to the chunk accumulator while the monitor is
enabled, runs SDR_STEP and then ENV_STAGE on the envelope; every element that neither writes is
unchanged. It runs wherever none of the three bounds is exceeded (R206, R207, R1208). -/
def Obligations.SampleRuns : Prop :=
  ∀ (s : State) (p : F32), s.life = .running → (F64.ofF32 p).isFinite = true →
    F64.lt F64.one (F64.ofF32 p).abs = false → s.trig.total ≠ BitVec.allOnes 64 →
    ¬ ChunkFull s →
    ¬ (EndsMark s (sdrStep s.cfg s.demod (F64.ofF32 p)).2 ∧ MarkEndOverflows s) →
    let acc := if s.cfg.monitorEnabled then s.link.chunkAcc ++ [F64.ofF32 p] else s.link.chunkAcc
    let r := sdrStep s.cfg s.demod (F64.ofF32 p)
    let s1 : State := { s with link := { s.link with chunkAcc := acc }, demod := r.1 }
    ∃ t, envStage s1 r.2 = .ok t ∧
      exec (.sample p) s = .next { t with pc := s.pc + 1 } ∧
      t = { s1 with thr := t.thr, trig := t.trig, sym := t.sym, dec := t.dec, adv := t.adv } ∧
      t.dec.lm = s.dec.lm ∧ t.trig.total = s.trig.total + 1

/-- R404, R410, R411, R421, R608, R212: CHUNK_END, as a whole one step. With the monitor disabled it changes
only `S.pc`. Under FREE the accumulator is handed to the queue (dropped when cancelled, dropped and counted
when the queue is full) and cleared, and the slot is taken and retunes: the monitor's state is untouched.
Under REFERENCE the monitor runs in between: the queue is drained and every whole tick period is used up;
the samples of the chunks enter the ring in order, MON_TICK (which the statement on the monitor's steps
gives) runs once for each whole tick period they fill, and the frequency then in the slot retunes. The last
clause is below the limit of `mon_since_tick` (log entry 16). -/
def Obligations.ChunkEndRuns : Prop :=
  ∀ s : State, s.life = .running →
    (s.cfg.monitorEnabled = false → exec .chunkEnd s = .next { s with pc := s.pc + 1 }) ∧
    (s.cfg.monitorEnabled = true → s.params.schedule = .free →
      let full : Bool := decide (s.cfg.monQueueCapacity ≤ s.link.queue.length)
      exec .chunkEnd s = .next
        { s with
          adv :=
            if s.link.cancelled = false ∧ full = true ∧ s.adv.chunkDropped ≠ BitVec.allOnes 64 then
              { s.adv with chunkDropped := s.adv.chunkDropped + 1 }
            else s.adv
          link :=
            { queue := if s.link.cancelled = false ∧ full = false
                then s.link.queue ++ [s.link.chunkAcc] else s.link.queue
              chunkAcc := []
              freqSlot := none
              cancelled := s.link.cancelled }
          demod :=
            match s.link.freqSlot with
            | none => s.demod
            | some f =>
              if F64.lt (f.sub s.demod.f0).abs F64.five then s.demod
              else { s.demod with f0 := f, afcFreq := f,
                                  afcPhaseInc := (F64.twoPi.mul f).div s.cfg.fs, afcCount := 0 }
          pc := s.pc + 1 }) ∧
    (s.cfg.monitorEnabled = true → s.params.schedule = .reference →
      ∃ t, exec .chunkEnd s = .next t ∧
        t.link.queue = [] ∧ t.link.chunkAcc = [] ∧ t.link.freqSlot = none ∧
        (1 ≤ s.cfg.tickSamples → t.mon.sinceTick.toNat < s.cfg.tickSamples) ∧
        t = { s with mon := t.mon, link := { t.link with cancelled := s.link.cancelled },
                     demod := t.demod, adv := { s.adv with chunkDropped := t.adv.chunkDropped },
                     pc := s.pc + 1 }) ∧
    (s.cfg.monitorEnabled = true → s.params.schedule = .reference → 1 ≤ s.cfg.tickSamples →
      let full : Bool := decide (s.cfg.monQueueCapacity ≤ s.link.queue.length)
      let chunks : List (List F64) := if s.link.cancelled = false ∧ full = false
        then s.link.queue ++ [s.link.chunkAcc] else s.link.queue
      let due := s.mon.sinceTick.toNat + chunks.flatten.length
      let delivered : State := { s with mon := { s.mon with
        ring := chunks.flatten.foldl (fun r v =>
          { buf := r.buf.set r.wi v, wi := (r.wi + 1) % s.cfg.monRingLen,
            fill := min (r.fill + 1) s.cfg.monRingLen }) s.mon.ring
        sinceTick := BitVec.ofNat 64 (due % s.cfg.tickSamples) } }
      let ticked := monTick^[due / s.cfg.tickSamples] delivered
      due < 2 ^ 64 →
      exec .chunkEnd s = .next
        { s with
          adv :=
            if s.link.cancelled = false ∧ full = true ∧ s.adv.chunkDropped ≠ BitVec.allOnes 64 then
              { s.adv with chunkDropped := s.adv.chunkDropped + 1 }
            else s.adv
          link := { queue := [], chunkAcc := [], freqSlot := none, cancelled := s.link.cancelled }
          mon := ticked.mon
          demod :=
            match ticked.link.freqSlot with
            | none => s.demod
            | some f =>
              if F64.lt (f.sub s.demod.f0).abs F64.five then s.demod
              else { s.demod with f0 := f, afcFreq := f,
                                  afcPhaseInc := (F64.twoPi.mul f).div s.cfg.fs, afcCount := 0 }
          pc := s.pc + 1 })

/-- R405, R1006, R420, R211: FLUSH settles by SYM_FLUSH, emits, cancels the monitor, empties the queue,
the accumulator and the slot, enters FLUSHED and discards a held partial word (log entry 3). It runs
wherever a fixed pulse-buffer capacity is not exceeded (R206, R1208). -/
def Obligations.FlushRuns : Prop :=
  ∀ s : State, s.life = .running → ¬ MarkOverflows s →
    ∃ t, symFlush s = .ok t ∧
      exec .flush s = .next
        { t with dec := emitText t.dec,
                 link := { queue := [], chunkAcc := [], freqSlot := none, cancelled := true },
                 life := .flushed, port := s.port.take (s.port.length / 8 * 8),
                 pc := s.pc + 1 } ∧
      t = { s with sym := t.sym, dec := { s.dec with paths := t.dec.paths }, adv := t.adv }

/-- R406, R1301, R1302: a RESET whose record is accepted sets every state element to its reset value;
`S.pc` advances by 1, the model's own fields are kept, and a held partial word is discarded (R211, log
entry 3). The model's choices here: the record is taken (log entry 4), the response port is kept (log
entry 24), and the overlap that is not supplied is N/2 of the record's own N (log entry 25). -/
def Obligations.ResetSetsEveryElement : Prop :=
  ∀ (s : State) (r : CfgRecord) (rs : List CfgRecord) (m : LangModel),
    s.cfgIn = r :: rs → validate r = .ok m →
    let c : Cfg := r.registers
    exec .reset s = .next
      { life := .running, pc := s.pc + 1, faultCode := 0, faultInfo := 0, adv := ⟨0, 0, 0, 0⟩
        cfg := c
        demod :=
          { lpfI := designCascade c.filterOrder c.fs c.fc
            lpfQ := designCascade c.filterOrder c.fs c.fc
            phi := F64.zero, f0 := c.targetFreqHz, afcPrevPhase := F64.zero, afcCount := 0
            afcFreq := c.targetFreqHz
            afcPhaseInc := (F64.twoPi.mul c.targetFreqHz).div c.fs }
        mon := { ring := ⟨List.replicate c.monRingLen F64.zero, 0, 0⟩, fsmooth := F64.zero,
                 locked := false, sinceTick := 0 }
        link := { queue := [], chunkAcc := [], freqSlot := none, cancelled := false }
        thr := { dsCount := 0, hist := ⟨List.replicate c.histCapacity F64.zero, 0, 0⟩,
                 athMax := F64.zero, athMin := F64.zero, high := F64.ten, low := F64.nine }
        trig := { current := false, stateStart := 0, total := 0, pending := false,
                  changeStart := 0 }
        sym := { pendingMarkMs := F64.zero, lastGapMs := F64.zero,
                 unitTimeMs := F64.twelveHundred.div c.initialWpm, pulseBuf := []
                 stats := ⟨List.replicate c.statsWindowSize F64.zero, 0, 0⟩ }
        dec := { paths := [⟨[], none, F64.zero⟩], lm := m, lastEmitted := [], out := [] }
        port := s.port.take (s.port.length / 8 * 8)
        cfgIn := rs, resp := s.resp, turns := s.turns, args := s.args, ret := s.ret
        params := s.params } ∧
    some m = r.lm ∧ some c.lm = r.lm ∧ some c.fs = r.fs ∧ some c.targetFreqHz = r.targetFreqHz ∧
    some c.monitorEnabled = r.monitorEnabled ∧ some c.minFreqHz = r.minFreqHz ∧
    some c.maxFreqHz = r.maxFreqHz ∧ some c.requiredSnr = r.requiredSnr ∧
    some c.alphaBase = r.alphaBase ∧ some c.alphaGain = r.alphaGain ∧
    some c.alphaMax = r.alphaMax ∧ some c.monQueueCapacity = r.monQueueCapacity ∧
    some c.afcEnabled = r.afcEnabled ∧ some c.athMinRange = r.athMinRange ∧
    some c.glitchThresholdMs = r.glitchThresholdMs ∧ some c.wpmUpdateAlpha = r.wpmUpdateAlpha ∧
    some c.statsWindowSize = r.statsWindowSize ∧ c.fftSize = r.fftSize ∧
    c.updateIntervalMs = r.updateIntervalMs ∧ c.noiseFloorMin = r.noiseFloorMin ∧
    c.peakPowerMin = r.peakPowerMin ∧ c.filterOrder = r.filterOrder ∧
    c.filterBwHz = r.filterBwHz ∧ c.afcGain = r.afcGain ∧ c.afcGate = r.afcGate ∧
    c.afcMinConsecutive = r.afcMinConsecutive ∧ c.afcDeadbandHz = r.afcDeadbandHz ∧
    c.afcRangeHz = r.afcRangeHz ∧ c.afcPolarity = r.afcPolarity ∧
    c.retuneHysteresisHz = r.retuneHysteresisHz ∧ c.thresholdStrategy = r.thresholdStrategy ∧
    c.histDownsampleRate = r.histDownsampleRate ∧ c.histWindowSeconds = r.histWindowSeconds ∧
    c.pctHystFrac = r.pctHystFrac ∧ c.athDecay = r.athDecay ∧ c.debounceMs = r.debounceMs ∧
    c.initialWpm = r.initialWpm ∧ c.charGapRatio = r.charGapRatio ∧
    c.wordGapRatio = r.wordGapRatio ∧ c.beamWidth = r.beamWidth ∧
    c.pruneThreshold = r.pruneThreshold ∧
    c.overlap = r.overlap.getD (r.fftSize / 2) ∧
    c.fc = (c.filterBwHz.div F64.two).min (F64.nyquistFrac.mul c.fs) ∧
    c.hop = c.fftSize - c.overlap ∧
    c.monRingLen = c.fftSize + 3 * c.hop ∧
    c.dsFactor = Nat.max 1 (F64.floor (c.fs.div c.histDownsampleRate)) ∧
    c.histCapacity = Nat.max 1 (F64.floor (c.histWindowSeconds.mul c.histDownsampleRate)) ∧
    c.debounceCount = (c.debounceMs.mul c.fs).div F64.thousand ∧
    c.tickSamples = Nat.max 1 (F64.floor ((c.updateIntervalMs.mul c.fs).div F64.thousand))

/-- R406, R1201, R1202, R1203, R1204, R1211: a RESET that is refused reports the first failing check, in
the order filter_order, fs, the other fields, lm, with info 0, and keeps everything else. `paramsOk` is
pinned by the next statement. The model's readings here: the record is taken (log entry 4), an fs or lm
that is not supplied fails the check of its own code (log entry 5), and the lower bound of an entry is
the value that R1108 prints (log entry 34). -/
def Obligations.ResetReportsTheFirstFailure : Prop :=
  ∀ (s : State) (r : CfgRecord) (rs : List CfgRecord), s.cfgIn = r :: rs →
    let orderBad : Prop := r.filterOrder % 2 = 1 ∨ r.filterOrder < 2
    let fsBad : Prop := ∀ fs, r.fs = some fs → fs.isFinite = false ∨
      F64.lt fs F64.twoHundred = true ∨ F64.lt F64.maxRate fs = true
    let lmBad : Prop := ∀ m, r.lm = some m → ∃ row ∈ m, 1 < row.1.length ∨
      ∃ e ∈ row.2, e.1.length ≠ 1 ∨ e.2.isFinite = false ∨
        F64.lt F64.lmBound e.2 = false ∨ F64.le e.2 F64.zero = false
    let faulted : BitVec 8 → Host.Outcome State Fault Refusal := fun c =>
      .next { s with cfgIn := rs, faultCode := c, faultInfo := 0, life := .faulted,
                     pc := s.pc + 1 }
    (orderBad → exec .reset s = faulted 0x01) ∧
    (¬ orderBad → fsBad → exec .reset s = faulted 0x02) ∧
    (¬ orderBad → ¬ fsBad → paramsOk r = false → exec .reset s = faulted 0x04) ∧
    (¬ orderBad → ¬ fsBad → paramsOk r = true → lmBad → exec .reset s = faulted 0x03)

/-- R7, R1108, R1204: RESET accepts a record exactly when every field meets its constraint, every OPEN
field is supplied and the language model is valid. The model's readings here: `alpha_base` and
`alpha_gain` may be infinite (log entry 23), an overlap that is not supplied is N/2 of the record's own N
and so passes at every admitted N (log entry 25), the four fixed fields must hold their fixed value (log
entry 26), and the lower bound of an entry is the value that R1108 prints (log entry 34). -/
def Obligations.ResetAcceptsExactlyTheConstraints : Prop :=
  ∀ (r : CfgRecord) (m : LangModel), validate r = .ok m ↔
    (r.filterOrder % 2 = 0 ∧ 2 ≤ r.filterOrder) ∧
    (∃ fs, r.fs = some fs ∧ fs.isFinite = true ∧ F64.le F64.twoHundred fs = true ∧
      F64.le fs F64.maxRate = true ∧
      (∃ f, r.targetFreqHz = some f ∧ f.isFinite = true ∧ F64.lt F64.zero f = true ∧
        F64.le f (F64.nyquistFrac.mul fs) = true) ∧
      (∃ mn mx, r.minFreqHz = some mn ∧ r.maxFreqHz = some mx ∧ F64.le F64.zero mn = true ∧
        F64.lt mn mx = true ∧ F64.lt mx (fs.div F64.two) = true)) ∧
    r.monitorEnabled.isSome = true ∧ r.afcEnabled.isSome = true ∧
    (16 ≤ r.fftSize ∧ r.fftSize ≤ 65536 ∧ ∃ k, r.fftSize = 2 ^ k) ∧
    (∀ o, r.overlap = some o → o < r.fftSize) ∧
    (r.updateIntervalMs.isFinite = true ∧ F64.lt F64.zero r.updateIntervalMs = true) ∧
    (∃ x, r.requiredSnr = some x ∧ x.isFinite = true ∧ F64.le F64.one x = true) ∧
    (∃ b g x, r.alphaBase = some b ∧ r.alphaGain = some g ∧ r.alphaMax = some x ∧
      F64.le F64.zero b = true ∧ F64.le F64.zero g = true ∧ F64.lt F64.zero x = true ∧
      F64.le x F64.one = true) ∧
    (r.noiseFloorMin = F64.billionth ∧ r.peakPowerMin = F64.thousandth ∧
      r.retuneHysteresisHz = F64.five ∧ r.pctHystFrac = F64.twentieth) ∧
    (∃ n, r.monQueueCapacity = some n ∧ 1 ≤ n) ∧
    (r.filterBwHz.isFinite = true ∧ F64.lt F64.zero r.filterBwHz = true) ∧
    (∀ x ∈ [r.afcGain, r.afcGate, r.afcDeadbandHz, r.afcRangeHz, r.debounceMs, r.pruneThreshold],
      x.isFinite = true ∧ F64.le F64.zero x = true) ∧
    1 ≤ r.afcMinConsecutive ∧ (r.afcPolarity = F64.negOne ∨ r.afcPolarity = F64.one) ∧
    (∀ x ∈ [r.histDownsampleRate, r.histWindowSeconds, r.charGapRatio],
      x.isFinite = true ∧ F64.lt F64.zero x = true) ∧
    (F64.lt F64.zero r.athDecay = true ∧ F64.lt r.athDecay F64.one = true) ∧
    (∃ x, r.athMinRange = some x ∧ x.isFinite = true ∧ F64.lt F64.zero x = true) ∧
    (r.initialWpm.isFinite = true ∧ F64.lt F64.zero r.initialWpm = true ∧
      F64.le r.initialWpm F64.oneTwenty = true) ∧
    (∃ x, r.glitchThresholdMs = some x ∧ x.isFinite = true ∧ F64.lt F64.zero x = true) ∧
    (r.wordGapRatio.isFinite = true ∧ F64.le r.charGapRatio r.wordGapRatio = true) ∧
    (∃ x, r.wpmUpdateAlpha = some x ∧ x.isFinite = true ∧ F64.lt F64.zero x = true ∧
      F64.le x F64.one = true) ∧
    (∃ n, r.statsWindowSize = some n ∧ 4 ≤ n ∧ n ≤ 20) ∧
    1 ≤ r.beamWidth ∧
    r.lm = some m ∧
    (∀ row ∈ m, row.1.length ≤ 1 ∧ ∀ e ∈ row.2, e.1.length = 1 ∧ e.2.isFinite = true ∧
      F64.lt F64.lmBound e.2 = true ∧ F64.le e.2 F64.zero = true)

/-! ## What no instruction may change -/

/-- R103, R208: the configuration registers are written only by RESET, the language model only by RESET
and LM_LOAD (which only RESET invokes), the model's parameters by nothing. -/
def Obligations.ConfigurationIsImmutable : Prop :=
  ∀ (i : Instr) (s t : State), exec i s = .next t →
    (i ≠ .reset → t.cfg = s.cfg) ∧
    (i ≠ .reset → i ≠ .lmLoad → t.dec.lm = s.dec.lm) ∧
    t.params = s.params

/-- R220, R212, R711: the agents keep to their own state. Under FREE no host command but RESET writes the
monitor's elements, for no monitor step falls inside a command; and a monitor step writes only the
monitor's elements, the queue and the slot. -/
def Obligations.AgentsOwnTheirState : Prop :=
  (∀ (i : Instr) (s t : State), IsHostCommand i → i ≠ .reset → s.params.schedule = .free →
    exec i s = .next t → t.mon = s.mon) ∧
  (∀ (i : Instr) (s t : State), i = .monDequeue ∨ i = .monTick → exec i s = .next t →
    t = { s with mon := t.mon,
                 link := { s.link with queue := t.link.queue, freqSlot := t.link.freqSlot } })

/-- R220, R225: between chunk boundaries the audio agent does not read the monitor's state, the queue or
the slot: a command that is no CHUNK_END, FLUSH or RESET does the same whatever they hold. -/
def Obligations.AudioIgnoresTheMonitorBetweenChunks : Prop :=
  ∀ (i : Instr) (s t : State) (m : Monitor) (q : List (List F64)) (f : Option F64),
    IsHostCommand i → i ≠ .chunkEnd → i ≠ .flush → i ≠ .reset → exec i s = .next t →
    exec i { s with mon := m, link := { s.link with queue := q, freqSlot := f } } =
      .next { t with mon := m, link := { t.link with queue := q, freqSlot := f } }

/-! ## The low-pass and the demodulator -/

/-- R504, R505: BIQUAD_STEP on an existing section, and LPF_CASCADE_STEP as the sections in order, each
fed with the output of the one before; and LPF_DESIGN gives both branches the same N/2 sections, low Q
first, with zero state (R501, R502, R503). -/
def Obligations.FilterStepsRun : Prop :=
  let stepOf : Biquad → F64 → Biquad × F64 := fun sec x =>
    let y := (sec.b0.mul x).add sec.s1
    ({ sec with s1 := ((sec.b1.mul x).sub (sec.a1.mul y)).add sec.s2,
                s2 := (sec.b2.mul x).sub (sec.a2.mul y) }, y)
  (∀ (s : State) (sec : Biquad),
    (cascadeOf s.demod s.args.branch)[s.args.index]? = some sec →
    exec .biquadStep s = .next
      { s with
        demod := withCascade s.demod s.args.branch
          ((cascadeOf s.demod s.args.branch).set s.args.index (stepOf sec s.args.x).1)
        ret := .num (stepOf sec s.args.x).2 }) ∧
  (∀ s : State,
    let r := (cascadeOf s.demod s.args.branch).foldl
      (fun (a : List Biquad × F64) sec => (a.1 ++ [(stepOf sec a.2).1], (stepOf sec a.2).2))
      ([], s.args.x)
    exec .lpfCascadeStep s = .next
      { s with demod := withCascade s.demod s.args.branch r.1, ret := .num r.2 }) ∧
  (∀ s : State,
    let n := s.cfg.filterOrder
    let fs := s.cfg.fs
    let w := (F64.two.mul fs).mul (Config.numerics.tan ((F64.pi.mul s.cfg.fc).div fs))
    let k := F64.two.mul fs
    let secs : List Biquad := (List.range (n / 2)).map fun j =>
      let theta := (F64.pi.mul (F64.ofNat (2 * (n / 2 - 1 - j) + 1))).div (F64.ofNat (2 * n))
      let sn := Config.numerics.sin theta
      let a0 := ((k.mul k).add (((F64.two.mul sn).mul w).mul k)).add (w.mul w)
      { b0 := (w.mul w).div a0
        b1 := ((F64.two.mul w).mul w).div a0
        b2 := (w.mul w).div a0
        a1 := (((F64.two.mul w).mul w).sub ((F64.two.mul k).mul k)).div a0
        a2 := (((k.mul k).sub (((F64.two.mul sn).mul w).mul k)).add (w.mul w)).div a0
        s1 := F64.zero
        s2 := F64.zero }
    exec .lpfDesign s = .next { s with demod := { s.demod with lpfI := secs, lpfQ := secs } })

/-- R601, R602, R605: LO_GEN, IQ_MIX and ENVELOPE return their values and write nothing; an envelope is
never negative. -/
def Obligations.MixerAndEnvelopeRun : Prop :=
  (∀ s : State, exec .loGen s = .next
    { s with ret := .pair (Config.numerics.cos s.demod.phi) (Config.numerics.sin s.demod.phi) }) ∧
  (∀ s : State, exec .iqMix s = .next
    { s with ret := .pair (s.args.x.mul s.args.y) (s.args.x.mul s.args.z) }) ∧
  (∀ s : State,
    let e := F64.two.mul (F64.sqrt ((s.args.x.mul s.args.x).add (s.args.y.mul s.args.y)))
    exec .envelope s = .next { s with ret := .num e } ∧ F64.lt e F64.zero = false)

/-- R603, R604: AFC_UPDATE, the gate, the saturating count, the measurement and, from the
`afc_min_consecutive`-th signal sample on, the correction with its dead-band and clamp. -/
def Obligations.AfcUpdateRuns : Prop :=
  ∀ s : State,
    let c := s.cfg
    let d := s.demod
    let curr := Config.numerics.atan2 s.args.y s.args.x
    let n := Nat.min (d.afcCount + 1) c.afcMinConsecutive
    let d0 := curr.sub d.afcPrevPhase
    let d1 := if F64.lt F64.pi d0 then d0.sub F64.twoPi
      else if F64.le d0 F64.negPi then d0.add F64.twoPi else d0
    let err := (d1.mul c.fs).div F64.twoPi
    let f := F64.clamp (d.afcFreq.add (c.afcPolarity.mul (err.mul c.afcGain)))
      (d.f0.sub c.afcRangeHz) (d.f0.add c.afcRangeHz)
    let inc := (F64.twoPi.mul f).div c.fs
    exec .afcUpdate s = .next
      (if F64.lt c.afcGate s.args.z then
        if c.afcMinConsecutive ≤ n ∧ F64.lt err.abs c.afcDeadbandHz = false then
          { s with demod := { d with afcCount := n, afcFreq := f, afcPhaseInc := inc,
                                     afcPrevPhase := curr },
                   ret := .num inc }
        else
          { s with demod := { d with afcCount := n, afcPrevPhase := curr },
                   ret := .num d.afcPhaseInc }
      else { s with demod := { d with afcCount := 0 }, ret := .num d.afcPhaseInc })

/-- R13, R604, R707: a clamped value lies in its bounds, so the AFC frequency stays within
`afc_range_hz` of the target and the refinement offset in [-0.5, 0.5]. -/
def Obligations.ClampedResultsStayInBounds : Prop :=
  (∀ v lo hi : F64, v.isNaN = false → F64.le lo hi = true →
    F64.le lo (F64.clamp v lo hi) = true ∧ F64.le (F64.clamp v lo hi) hi = true) ∧
  (∀ s : State, s.demod.f0.isFinite = true → s.cfg.afcRangeHz.isFinite = true →
    F64.le F64.zero s.cfg.afcRangeHz = true →
    ∃ t, exec .afcUpdate s = .next t ∧
      (t.demod.afcFreq = s.demod.afcFreq ∨
        ∃ cf, t.demod.afcFreq = F64.clamp cf (s.demod.f0.sub s.cfg.afcRangeHz)
            (s.demod.f0.add s.cfg.afcRangeHz) ∧
          (cf.isNaN = false →
            F64.le (s.demod.f0.sub s.cfg.afcRangeHz) t.demod.afcFreq = true ∧
            F64.le t.demod.afcFreq (s.demod.f0.add s.cfg.afcRangeHz) = true))) ∧
  (∀ s : State, ∃ d, exec .parabolicRefine s = .next { s with ret := .num d } ∧
    (d = F64.zero ∨ ∃ v, d = F64.clamp v F64.half.neg F64.half ∧
      (v.isNaN = false →
        F64.le F64.half.neg d = true ∧ F64.le d F64.half = true)))

/-- R607, R120: PHASE_ADVANCE; and after it, where the sum is finite, 0 <= S.phi < TWO_PI. -/
def Obligations.PhaseAdvanceRuns : Prop :=
  ∀ s : State,
    let sum := s.demod.phi.add s.args.x
    let p := F64.fmod sum F64.twoPi
    let p1 := if F64.lt p F64.zero then p.add F64.twoPi else p
    let p2 := if F64.le F64.twoPi p1 then F64.zero else p1
    exec .phaseAdvance s = .next { s with demod := { s.demod with phi := p2 } } ∧
    (sum.isFinite = true → F64.le F64.zero p2 = true ∧ F64.lt p2 F64.twoPi = true)

/-- R600, R606, R608: SDR_RETUNE within 5 Hz of the target changes nothing, else it sets the target, the
AFC frequency, the increment and the count, and keeps the filters (R609), the phase and the previous
AFC phase; SDR_STEP is its six steps in order, each on the state the one before leaves, with the
increment of AFC_UPDATE where the AFC is enabled, else `(TWO_PI * S.f0) / S.cfg.fs`. -/
def Obligations.SdrRetuneAndStepRun : Prop :=
  (∀ s : State, exec .sdrRetune s = .next
    { s with
      demod :=
        if F64.lt (s.args.x.sub s.demod.f0).abs F64.five then s.demod
        else { s.demod with f0 := s.args.x, afcFreq := s.args.x,
                            afcPhaseInc := (F64.twoPi.mul s.args.x).div s.cfg.fs,
                            afcCount := 0 } }) ∧
  (∀ s : State,
    let i := s.args.x.mul (Config.numerics.cos s.demod.phi)
    let q := s.args.x.mul (Config.numerics.sin s.demod.phi)
    let ci := cascadeStep s.demod.lpfI i
    let cq := cascadeStep s.demod.lpfQ q
    let e := F64.two.mul (F64.sqrt ((ci.2.mul ci.2).add (cq.2.mul cq.2)))
    let d1 : Demod := { s.demod with lpfI := ci.1, lpfQ := cq.1 }
    exec .sdrStep s = .next
      (if s.cfg.afcEnabled then
        let u := afcUpdate s.cfg d1 ci.2 cq.2 e
        { s with demod := phaseAdvance u.1 u.2, ret := .num e }
      else
        { s with demod := phaseAdvance d1 ((F64.twoPi.mul s.demod.f0).div s.cfg.fs),
                 ret := .num e }))

/-! ## The spectrum monitor -/

/-- R410, R411, R1208: MON_ENQUEUE drops nothing into the queue when cancelled, drops the newest chunk and
counts it (saturating) when the queue is full, else appends it; FREQ_POLL takes the slot. -/
def Obligations.EnqueueAndPollRun : Prop :=
  (∀ s : State, exec .monEnqueue s = .next
    (if s.link.cancelled then s
     else if s.cfg.monQueueCapacity ≤ s.link.queue.length then
       { s with adv := { s.adv with
           chunkDropped := if s.adv.chunkDropped = BitVec.allOnes 64 then s.adv.chunkDropped
             else s.adv.chunkDropped + 1 } }
     else { s with link := { s.link with queue := s.link.queue ++ [s.args.vec] } })) ∧
  (∀ s : State, exec .freqPoll s = .next
    { s with link := { s.link with freqSlot := none }, ret := .freq s.link.freqSlot })

/-- R421, R701, R711, R708: an enabled MON_DEQUEUE moves the oldest chunk into the ring; an enabled
MON_TICK does nothing on a short ring or an empty band, else hands the peak, the noise floor and the
refined frequency to ACCEPT_AND_SMOOTH, and writes only the smoothed frequency, the lock and the
slot; its copy of the ring is R203's, oldest first. A monitor step that is not enabled changes nothing
(log entry 8, the model's choice). -/
def Obligations.MonitorStepsRun : Prop :=
  ∀ s : State,
    let enabled : Prop := s.params.schedule = .free ∧ s.life = .running ∧
      s.cfg.monitorEnabled = true ∧ s.link.cancelled = false
    let buf := (List.range s.mon.ring.fill).map fun j => elemAt s.mon.ring.buf
      (((s.mon.ring.wi : Int) - (s.mon.ring.fill : Int) + (j : Int)) % (s.cfg.monRingLen : Int)).toNat
    let p := welchPsd s.cfg buf
    (enabled → ∀ chunk rest, s.link.queue = chunk :: rest →
      s.mon.sinceTick.toNat + chunk.length < 2 ^ 64 →
      exec .monDequeue s = .next
        { s with
          mon := { s.mon with
            ring := chunk.foldl (fun r v =>
              { buf := r.buf.set r.wi v, wi := (r.wi + 1) % s.cfg.monRingLen,
                fill := min (r.fill + 1) s.cfg.monRingLen }) s.mon.ring
            sinceTick := s.mon.sinceTick + BitVec.ofNat 64 chunk.length }
          link := { s.link with queue := rest } }) ∧
    (enabled → buf.length < s.cfg.fftSize ∨ peakSearch s.cfg p = none →
      exec .monTick s = .next s) ∧
    (enabled → s.cfg.fftSize ≤ buf.length → ∀ kp, peakSearch s.cfg p = some kp →
      ∃ t, exec .monTick s = .next t ∧
        t = acceptAndSmooth s (elemAt p kp) (noiseFloor p)
          ((((F64.ofNat kp).add (parabolicRefine s.cfg p kp)).mul s.cfg.fs).div
            (F64.ofNat s.cfg.fftSize)) ∧
        t = { s with mon := { s.mon with fsmooth := t.mon.fsmooth, locked := t.mon.locked },
                     link := { s.link with freqSlot := t.link.freqSlot } }) ∧
    (¬ enabled → exec .monDequeue s = .next s ∧ exec .monTick s = .next s)

/-- R702, R703, R704, R15: WELCH_PSD of a copy with at least one segment: bin k of 0 .. N/2 is the sum,
in increasing segment order, of the segments' powers in that bin, over the segment count. -/
def Obligations.WelchPsdAverages : Prop :=
  ∀ s : State, s.cfg.fftSize ≤ s.args.vec.length →
    let n := s.cfg.fftSize
    let m := (s.args.vec.length - n) / s.cfg.hop + 1
    let hannAt : Nat → F64 := fun k => F64.half.mul (F64.one.sub
      (Config.numerics.cos ((F64.twoPi.mul (F64.ofNat k)).div (F64.ofNat (n - 1)))))
    let power : Nat → Nat → F64 := fun j k => Config.numerics.fftPower
      ((List.range n).map fun i => (elemAt s.args.vec (j * s.cfg.hop + i)).mul (hannAt i)) k
    ∃ v, exec .welchPsd s = .next { s with ret := .vec v } ∧ v.length = n / 2 + 1 ∧
      ∀ k ≤ n / 2, v[k]? = some
        ((((List.range (m - 1)).map fun j => power (j + 1) k).foldl F64.add (power 0 k)).div
          (F64.ofNat m))

/-- R705, R16: NOISE_FLOOR of a non-empty spectrum without NaN is the middle of its values in
non-decreasing order (of an even count the mean of the two middle ones), at least 1e-9. -/
def Obligations.NoiseFloorIsTheMedian : Prop :=
  ∀ s : State, s.args.vec ≠ [] → (∀ x ∈ s.args.vec, x.isNaN = false) →
    ∃ (v : List F64) (med : F64),
      v.Perm s.args.vec ∧ v.Pairwise (fun a b => F64.le a b = true) ∧
      (s.args.vec.length % 2 = 1 → v[s.args.vec.length / 2]? = some med) ∧
      (s.args.vec.length % 2 = 0 → ∃ a b, v[s.args.vec.length / 2 - 1]? = some a ∧
        v[s.args.vec.length / 2]? = some b ∧ med = (a.add b).div F64.two) ∧
      exec .noiseFloor s = .next { s with ret := .num (med.max F64.billionth) }

/-- R706: PEAK_SEARCH of a spectrum of N/2 + 1 bins without NaN answers the lowest of the strongest bins
whose frequency lies in the band, both edges included, and none of an empty band. -/
def Obligations.PeakIsTheLowestMaximum : Prop :=
  ∀ s : State, s.args.vec.length = s.cfg.fftSize / 2 + 1 → (∀ x ∈ s.args.vec, x.isNaN = false) →
    let inBand : Nat → Prop := fun k => k ≤ s.cfg.fftSize / 2 ∧
      F64.le s.cfg.minFreqHz (((F64.ofNat k).mul s.cfg.fs).div (F64.ofNat s.cfg.fftSize)) = true ∧
      F64.le (((F64.ofNat k).mul s.cfg.fs).div (F64.ofNat s.cfg.fftSize)) s.cfg.maxFreqHz = true
    ∃ r, exec .peakSearch s = .next { s with ret := .bin r } ∧
      (r = none ↔ ∀ k, ¬ inBand k) ∧
      (∀ kp, r = some kp → inBand kp ∧ ∀ k a b, inBand k → s.args.vec[kp]? = some a →
        s.args.vec[k]? = some b →
        F64.lt a b = false ∧ (k < kp → F64.lt b a = true))

/-- R707, R709, R710: PARABOLIC_REFINE on a peak with both neighbours and at the ends, and
ACCEPT_AND_SMOOTH: a rejected result writes nothing, an accepted one latches or mixes and publishes. -/
def Obligations.RefineAndAcceptRun : Prop :=
  (∀ (s : State) (a b c : F64), 1 ≤ s.args.index → s.args.index + 1 ≤ s.cfg.fftSize / 2 →
    s.args.vec[s.args.index - 1]? = some a → s.args.vec[s.args.index]? = some b →
    s.args.vec[s.args.index + 1]? = some c →
    exec .parabolicRefine s = .next
      { s with
        ret := .num
          (if F64.feq ((a.sub (F64.two.mul b)).add c) F64.zero then F64.zero
           else F64.clamp ((F64.half.mul (a.sub c)).div ((a.sub (F64.two.mul b)).add c))
            F64.half.neg F64.half) }) ∧
  (∀ s : State, s.args.index < 1 ∨ s.cfg.fftSize / 2 < s.args.index + 1 →
    exec .parabolicRefine s = .next { s with ret := .num F64.zero }) ∧
  (∀ s : State,
    let peak := s.args.x
    let noise := s.args.y
    let fNew := s.args.z
    let snr := peak.div noise
    let alpha := (s.cfg.alphaBase.add (((F64.ten.mul (Config.numerics.log10 snr)).div
      s.cfg.requiredSnr).mul s.cfg.alphaGain)).min s.cfg.alphaMax
    let f := if s.mon.locked
      then ((F64.one.sub alpha).mul s.mon.fsmooth).add (alpha.mul fNew) else fNew
    exec .acceptAndSmooth s = .next
      (if F64.lt (noise.mul s.cfg.requiredSnr) peak = true ∧ F64.lt F64.thousandth peak = true then
        { s with mon := { s.mon with fsmooth := f, locked := true },
                 link := { s.link with freqSlot := some f } }
      else s))

/-! ## Thresholds -/

/-- R800, R802, R803, R804, R1208: HIST_PUSH stores one envelope in `ds_factor`; HIST_SUGGEST takes the
percentiles 0.10 and 0.95 of the sorted history (R203's chronological copy) and counts a squelch
(saturating); PCT_TO_HL centres the band; ATH_UPDATE moves the two levels with the safety clamp and
answers the sentinel (10, 9) with a counted squelch, or the centred pair. -/
def Obligations.ThresholdOperationsRun : Prop :=
  (∀ s : State, exec .histPush s = .next
    (if s.thr.dsCount + 1 = s.cfg.dsFactor then
      { s with thr := { s.thr with dsCount := 0, hist :=
                 { buf := s.thr.hist.buf.set s.thr.hist.wi s.args.x,
                   wi := (s.thr.hist.wi + 1) % s.cfg.histCapacity,
                   fill := min (s.thr.hist.fill + 1) s.cfg.histCapacity } },
               ret := .bool true }
     else { s with thr := { s.thr with dsCount := s.thr.dsCount + 1 }, ret := .bool false })) ∧
  (∀ s : State,
    let n := s.thr.hist.fill
    let v := sortAsc ((List.range n).map fun j => elemAt s.thr.hist.buf
      (((s.thr.hist.wi : Int) - (n : Int) + (j : Int)) % (s.cfg.histCapacity : Int)).toNat)
    let noise := elemAt v (min (F64.floor (F64.tenth.mul (F64.ofNat n))) (n - 1))
    let peak := elemAt v (min (F64.floor (F64.p95.mul (F64.ofNat n))) (n - 1))
    exec .histSuggest s = .next
      (if F64.lt peak (F64.oneAndHalf.mul noise) = true ∨ F64.le peak noise = true then
        { s with adv := { s.adv with squelch :=
                   if s.adv.squelch = BitVec.allOnes 64 then s.adv.squelch
                   else s.adv.squelch + 1 },
                 ret := .suggestion ⟨F64.three.mul noise, peak, noise, true⟩ }
       else
        { s with
          ret := .suggestion
            ⟨noise.add (F64.fifth.mul (peak.sub noise)), peak, noise, false⟩ })) ∧
  (∀ s : State,
    let thr := s.args.x
    let h := F64.twentieth.mul (s.args.y.sub s.args.z)
    exec .pctToHl s = .next
      { s with ret := if s.args.flag then .pair thr thr else .pair (thr.add h) (thr.sub h) }) ∧
  (∀ s : State,
    let e := s.args.x
    let d := s.cfg.athDecay
    let mx := if F64.lt s.thr.athMax e then e else s.thr.athMax.mul d
    let mn0 := if F64.lt e s.thr.athMin then e
      else s.thr.athMin.add ((mx.sub s.thr.athMin).mul (F64.one.sub d))
    let mn := if F64.lt mx mn0 then mx else mn0
    let r := mx.sub mn
    let c := mn.add (F64.half.mul r)
    let h := F64.twentieth.mul r
    exec .athUpdate s = .next
      (if F64.lt r s.cfg.athMinRange then
        { s with thr := { s.thr with athMax := mx, athMin := mn },
                 adv := { s.adv with squelch :=
                   if s.adv.squelch = BitVec.allOnes 64 then s.adv.squelch
                   else s.adv.squelch + 1 },
                 ret := .pair F64.ten F64.nine }
      else { s with thr := { s.thr with athMax := mx, athMin := mn },
                    ret := .pair (c.add h) (c.sub h) }))

/-! ## Trigger -/

/-- R901, R902, R903, R904: SCHMITT_RAW, DEBOUNCE_STEP and, below the counter's limit, TRIG_STEP. -/
def Obligations.TriggerOperationsRun : Prop :=
  let raw : Trigger → F64 → F64 → F64 → Bool := fun t env high low =>
    if t.current = true ∧ F64.lt env low = true then false
    else if t.current = false ∧ F64.lt high env = true then true
    else t.current
  let debounced : Cfg → Trigger → Bool → Trigger × Option Transition := fun c t r =>
    if r = t.current then ({ t with pending := false }, none)
    else if t.pending = false then ({ t with pending := true, changeStart := t.total }, none)
    else if F64.lt c.debounceCount (F64.ofNat (t.total - t.changeStart).toNat) then
      ({ t with current := r, stateStart := t.changeStart, pending := false },
        some { finished := t.current
               durationMs := ((F64.ofNat (t.changeStart - t.stateStart).toNat).mul
                 F64.thousand).div c.fs })
    else (t, none)
  (∀ s : State, exec .schmittRaw s = .next
    { s with ret := .bool (raw s.trig s.args.x s.args.y s.args.z) }) ∧
  (∀ s : State, exec .debounceStep s = .next
    { s with trig := (debounced s.cfg s.trig s.args.flag).1,
             ret := .event (debounced s.cfg s.trig s.args.flag).2 }) ∧
  (∀ s : State, s.trig.total ≠ BitVec.allOnes 64 →
    let r := debounced s.cfg s.trig (raw s.trig s.args.x s.args.y s.args.z)
    exec .trigStep s = .next
      { s with trig := { r.1 with total := s.trig.total + 1 }, ret := .event r.2 })

/-- R905, the debounce property: from a trigger with no pending change, a run of samples (envelope, high,
low), each with its own thresholds, on which raw disagrees with the committed state (and goes on to
after the commit) gives no event when its length is at most floor(D) + 1, and exactly one when it is
floor(D) + 2 or more: the state that ended, its length up to the first of these samples, which becomes
`state_start_sample`. -/
def Obligations.DebounceCommitsExactlyOnce : Prop :=
  ∀ (c : Cfg) (t : Trigger) (xs : List (F64 × F64 × F64)),
    t.pending = false → c.debounceCount.isFinite = true → c.debounceCount.sign = false →
    c.debounceCount.units / 2 ^ 1074 < 2 ^ 52 →
    (∀ x ∈ xs, (t.current = false ∧ F64.lt x.2.1 x.1 = true) ∨
      (t.current = true ∧ F64.lt x.1 x.2.2 = true)) →
    (∀ x ∈ xs.drop (c.debounceCount.units / 2 ^ 1074 + 2),
      (t.current = false ∧ F64.lt x.1 x.2.2 = false) ∨
      (t.current = true ∧ F64.lt x.2.1 x.1 = false)) →
    t.total.toNat + xs.length < 2 ^ 64 →
    ∃ u evs, runTrigger c xs t = some (u, evs) ∧
      u.total.toNat = t.total.toNat + xs.length ∧
      (xs.length ≤ c.debounceCount.units / 2 ^ 1074 + 1 →
        evs = [] ∧ u.current = t.current ∧ u.stateStart = t.stateStart) ∧
      (c.debounceCount.units / 2 ^ 1074 + 2 ≤ xs.length →
        evs = [{ finished := t.current
                 durationMs := ((F64.ofNat (t.total - t.stateStart).toNat).mul
                   F64.thousand).div c.fs }] ∧
        u.current = !t.current ∧ u.stateStart = t.total ∧ u.pending = false)

/-! ## Symbol timing and the analyzer -/

/-- R1001, R1009: SYM_GAP_END adds to the staged gap; STATS_PUSH writes the window. -/
def Obligations.GapEndAndStatsPushRun : Prop :=
  (∀ s : State, exec .symGapEnd s = .next
    { s with sym := { s.sym with lastGapMs := s.sym.lastGapMs.add s.args.x } }) ∧
  (∀ s : State, exec .statsPush s = .next
    { s with sym := { s.sym with stats :=
        { buf := s.sym.stats.buf.set s.sym.stats.wi s.args.x,
          wi := (s.sym.stats.wi + 1) % s.cfg.statsWindowSize,
          fill := min (s.sym.stats.fill + 1) s.cfg.statsWindowSize } } })

/-- R1002, R1005, R1006: SYM_MARK_END stitches a short gap into the pending mark, else settles the mark,
then the gap, then stages the new mark; SYM_FLUSH settles a pending mark and hands the pulse buffer
over. They run wherever a fixed pulse-buffer capacity is not exceeded (R206, R1208). -/
def Obligations.MarkEndAndFlushRun : Prop :=
  ∀ s : State,
    (F64.lt F64.zero s.sym.lastGapMs = true ∧
        F64.lt s.sym.lastGapMs s.cfg.glitchThresholdMs = true →
      exec .symMarkEnd s = .next
        { s with sym := { s.sym with
            pendingMarkMs := s.sym.pendingMarkMs.add (s.sym.lastGapMs.add s.args.x)
            lastGapMs := F64.zero } }) ∧
    (¬ (F64.lt F64.zero s.sym.lastGapMs = true ∧
        F64.lt s.sym.lastGapMs s.cfg.glitchThresholdMs = true) → ¬ MarkEndOverflows s →
      ∃ s1 s2, settleMark s = .ok s1 ∧ settleGap s1 = .ok s2 ∧
        exec .symMarkEnd s = .next
          { s2 with sym := { s2.sym with pendingMarkMs := s.args.x, lastGapMs := F64.zero } }) ∧
    (F64.lt F64.zero s.sym.pendingMarkMs = false → exec .symFlush s = .next s) ∧
    (F64.lt F64.zero s.sym.pendingMarkMs = true → ¬ MarkOverflows s →
      ∃ s1, settleMark s = .ok s1 ∧
        let s2 : State := { s1 with sym := { s1.sym with pendingMarkMs := F64.zero } }
        exec .symFlush s = .next
          (if s2.sym.pulseBuf = [] then s2
           else
            let s3 := beamStep s2 s2.sym.pulseBuf
            { s3 with sym := { s3.sym with pulseBuf := [] } }))

/-- R1003, R1004: SETTLE_MARK (a real mark updates the unit and appends its pulse by the updated unit, a
glitch is folded into the gap, with the last gap pulse where the buffer ends in one) and SETTLE_GAP.
They run wherever a fixed pulse-buffer capacity has room for the pulse, if one is appended (R206, R1208):
a buffer may be filled up to its capacity. -/
def Obligations.SettleMarkAndGapRun : Prop :=
  ∀ s : State,
    (¬ MarkOverflows s → exec .settleMark s = .next
      (if F64.lt F64.zero s.sym.pendingMarkMs then
        if F64.lt s.cfg.glitchThresholdMs s.sym.pendingMarkMs then
          let s1 := wpmUpdate s s.sym.pendingMarkMs
          { s1 with sym := { s1.sym with pulseBuf :=
              s.sym.pulseBuf ++ [s.sym.pendingMarkMs.div s1.sym.unitTimeMs] } }
        else if h : 0 < s.sym.pulseBuf.length ∧ s.sym.pulseBuf.length % 2 = 0 then
          { s with sym := { s.sym with
              pulseBuf := s.sym.pulseBuf.dropLast
              lastGapMs := (s.sym.lastGapMs.add
                ((s.sym.pulseBuf.getLast (List.ne_nil_of_length_pos h.1)).mul
                  s.sym.unitTimeMs)).add s.sym.pendingMarkMs } }
        else
          { s with sym := { s.sym with
              lastGapMs := s.sym.lastGapMs.add s.sym.pendingMarkMs } }
      else s)) ∧
    (¬ GapOverflows s → exec .settleGap s = .next
      (if F64.lt (s.sym.unitTimeMs.mul s.cfg.charGapRatio) s.sym.lastGapMs then
        let s1 : State := if s.sym.pulseBuf = [] then s
          else { beamStep s s.sym.pulseBuf with sym := { s.sym with pulseBuf := [] } }
        if F64.lt (s.sym.unitTimeMs.mul s.cfg.wordGapRatio) s.sym.lastGapMs then
          beamInjectSpace s1
        else s1
      else if F64.lt F64.zero s.sym.lastGapMs = true ∧ 1 ≤ s.sym.pulseBuf.length then
        { s with sym := { s.sym with pulseBuf :=
            s.sym.pulseBuf ++ [s.sym.lastGapMs.div s.sym.unitTimeMs] } }
      else s))

/-- R1007, R1008: WPM_UPDATE pushes the mark, analyses the window, adapts the unit inside the outlier band
and resets a unit below 10 ms to 60 ms, counted (saturating). -/
def Obligations.WpmUpdateRuns : Prop :=
  ∀ s : State,
    let d := s.args.x
    let unit := s.sym.unitTimeMs
    let ring := ringWrite s.cfg.statsWindowSize s.sym.stats d
    let st := statsAnalyze s.cfg ring
    let thr := match st with
      | some r => r.optimalThreshold
      | none => F64.twoPointTwo.mul unit
    let su := if F64.lt d thr then d else d.div F64.three
    let a := match st with
      | some r => F64.clamp (s.cfg.wpmUpdateAlpha.mul r.confidence) F64.twentieth F64.half
      | none => s.cfg.wpmUpdateAlpha
    let u := if F64.le (F64.half.mul unit) su = true ∧ F64.le su (F64.oneAndHalf.mul unit) = true
      then (a.mul su).add ((F64.one.sub a).mul unit) else unit
    exec .wpmUpdate s = .next
      (if F64.lt u F64.ten then
        { s with sym := { s.sym with stats := ring, unitTimeMs := F64.sixty },
                 adv := { s.adv with unitReset :=
                   if s.adv.unitReset = BitVec.allOnes 64 then s.adv.unitReset
                   else s.adv.unitReset + 1 } }
      else { s with sym := { s.sym with stats := ring, unitTimeMs := u } })

/-- R1010: STATS_ANALYZE: invalid on a window that is not full or whose largest central gap is below
20 ms (or that has no central gap), else the split at the first largest gap and its statistics. -/
def Obligations.StatsAnalyzeRuns : Prop :=
  ∀ s : State,
    let w := s.cfg.statsWindowSize
    let v := sortAsc (s.sym.stats.buf.take w)
    let lo := F64.floor (F64.quarter.mul (F64.ofNat w))
    let hi := F64.floor (F64.threeQuarters.mul (F64.ofNat w))
    let scan : F64 × Option Nat := ((List.range (hi - lo)).map (lo + ·)).foldl (fun acc i =>
      if F64.lt acc.1 ((elemAt v (i + 1)).sub (elemAt v i))
      then ((elemAt v (i + 1)).sub (elemAt v i), some i) else acc) (F64.negOne, none)
    let mean : List F64 → F64 := fun x => (x.foldl F64.add F64.zero).div (F64.ofNat x.length)
    let sd : List F64 → F64 := fun x => F64.sqrt
      (((x.map fun y => (y.sub (mean x)).mul (y.sub (mean x))).foldl F64.add F64.zero).div
        (F64.ofNat x.length))
    exec .statsAnalyze s = .next
      { s with
        ret := .analysis (if s.sym.stats.fill < w then none
         else match scan with
          | (_, none) => none
          | (best, some bi) =>
            if F64.lt best F64.twenty then none
            else
              let dits := v.take (bi + 1)
              let dahs := v.drop (bi + 1)
              some
                { optimalThreshold := ((elemAt v bi).add (elemAt v (bi + 1))).div F64.two
                  ditMean := mean dits
                  ditStddev := sd dits
                  dahMean := mean dahs
                  dahStddev := sd dahs
                  confidence := F64.max (F64.one.sub
                    ((((sd dits).div (mean dits)).add ((sd dahs).div (mean dahs))).div F64.two))
                    F64.tenth }) }

/-- R1012, glitch invariance: a mark m1 staged, a gap g with 0 < g < gl, a mark m2, injected in this
order, become one pending mark of m1 + (g + m2) ms, with nothing else of the symbol buffer and
nothing of the beam changed; settled, where it is longer than gl and the pulse buffer has room for it,
it is one pulse by the updated unit. -/
def Obligations.GlitchIsStitchedIntoOnePulse : Prop :=
  ∀ (s : State) (g m : F32), s.life = .running → s.sym.lastGapMs = F64.zero →
    (F64.ofF32 g).isFinite = true → F64.lt F64.zero (F64.ofF32 g) = true →
    F64.lt (F64.ofF32 g) s.cfg.glitchThresholdMs = true →
    (F64.ofF32 m).isFinite = true → F64.lt (F64.ofF32 m) F64.zero = false →
    let total := s.sym.pendingMarkMs.add ((F64.ofF32 g).add (F64.ofF32 m))
    ∃ t u, exec (.injectTransition false g) s = .next t ∧
      exec (.injectTransition true m) t = .next u ∧
      u.sym = { s.sym with pendingMarkMs := total, lastGapMs := F64.zero } ∧
      u.dec.paths = s.dec.paths ∧ u.adv = s.adv ∧
      (F64.lt s.cfg.glitchThresholdMs total = true → ¬ PulseBufFull s →
        ∃ v, exec .settleMark u = .next v ∧
          v.sym.pulseBuf = s.sym.pulseBuf ++ [total.div v.sym.unitTimeMs])

/-! ## The beam decoder -/

/-- R1101, R1102, R1106: BEAM_STEP extends every path by every pattern of the vector's length, drops
emissions below -50, keeps the beam and counts the event (saturating) where nothing is left, else
prunes; BEAM_INJECT_SPACE appends a space where one belongs and prunes. -/
def Obligations.BeamStepAndSpaceRun : Prop :=
  (∀ s : State,
    let sig := s.args.vec
    let sd : F64 × F64 := match statsAnalyze s.cfg s.sym.stats with
      | some r => (r.ditStddev, r.dahStddev)
      | none => (F64.fifth, F64.twoFifths)
    let cands : List Path := s.dec.paths.flatMap fun p => patterns.filterMap fun e =>
      if e.2.length ≠ sig.length then none
      else if F64.lt (emissionScore sig e.2 sd.1 sd.2) F64.negFifty then none
      else some { sentence := p.sentence ++ [e.1], lastChar := some e.1
                  score := p.score.add ((emissionScore sig e.2 sd.1 sd.2).add
                    (lmGet s.dec.lm p.lastChar e.1)) }
    exec .beamStep s = .next
      (if cands = [] then
        { s with adv := { s.adv with decoderStarved :=
            if s.adv.decoderStarved = BitVec.allOnes 64 then s.adv.decoderStarved
            else s.adv.decoderStarved + 1 } }
       else { s with dec := { s.dec with paths := beamPrune s.cfg cands } })) ∧
  (∀ s : State,
    exec .beamInjectSpace s = .next
      { s with dec := { s.dec with paths := beamPrune s.cfg (s.dec.paths.map fun p =>
          if p.sentence ≠ [] ∧ p.sentence.getLast? ≠ some ' ' then
            { sentence := p.sentence ++ [' '], lastChar := some ' '
              score := p.score.add (lmGet s.dec.lm p.lastChar ' ') }
          else p) } })

/-- R1103, R1107, R1109: EMISSION_SCORE, BEAM_GET_RESULT and LM_GET return their values and write
nothing. -/
def Obligations.DecoderReadsRun : Prop :=
  (∀ s : State, exec .emissionScore s = .next
    { s with
      ret := .num
        (if s.args.vec.length ≠ s.args.vec2.length then F64.negThousand
         else (s.args.vec.zip s.args.vec2).foldl (fun e (p : F64 × F64) =>
          let sg := F64.min (F64.max (if F64.lt F64.two p.2 then s.args.y else s.args.x)
            F64.quarter) F64.five
          let d := p.1.sub p.2
          e.add ((d.mul d).neg.div ((F64.two.mul sg).mul sg))) F64.zero) }) ∧
  (∀ (s : State) (p : Path) (ps : List Path), s.dec.paths = p :: ps →
    exec .beamGetResult s = .next { s with ret := .text p.sentence }) ∧
  (∀ s : State,
    let key : Text := match s.args.prev with
      | none => []
      | some c => [c]
    (∀ row v, s.dec.lm.lookup key = some row → row.lookup [s.args.next] = some v →
      exec .lmGet s = .next { s with ret := .num v }) ∧
    ((∀ row, s.dec.lm.lookup key = some row → row.lookup [s.args.next] = none) →
      exec .lmGet s = .next
        { s with
          ret := .num (if s.args.prev = none then Config.numerics.log F64.twentieth
            else Config.numerics.log F64.millionth) }))

/-- R1105, R16: BEAM_PRUNE of candidates whose scores are no NaN, with K >= 1 and a prune threshold that
is finite and not negative: what it keeps are candidates, the best one first; nothing that is kept is
beaten by a candidate with the same last character; unless K are kept, every last character of the score
window is; and what is kept stands in the stable order `v` of the candidates (non-increasing scores,
equal scores as they came), of each last character the first. Which K are kept is said too: all that
is kept stands in a first part of `v`, each last character of which is kept, so no candidate with
another last character is passed over for a later one. -/
def Obligations.BeamPruneKeepsTheBest : Prop :=
  ∀ s : State, s.args.cands ≠ [] → (∀ p ∈ s.args.cands, p.score.isNaN = false) →
    1 ≤ s.cfg.beamWidth → s.cfg.pruneThreshold.isFinite = true →
    F64.le F64.zero s.cfg.pruneThreshold = true →
    ∃ (best : Path) (out v : List Path),
      exec .beamPrune s = .next { s with ret := .paths (best :: out) } ∧
      BeamOrdered s.cfg.beamWidth s.cfg.pruneThreshold (best :: out) ∧
      (∀ p ∈ best :: out, p ∈ s.args.cands) ∧
      (∀ c ∈ s.args.cands, F64.le c.score best.score = true) ∧
      (∀ p ∈ best :: out, ∀ c ∈ s.args.cands, c.lastChar = p.lastChar →
        F64.le c.score p.score = true) ∧
      ((best :: out).length < s.cfg.beamWidth → ∀ c ∈ s.args.cands,
        F64.le (best.score.sub s.cfg.pruneThreshold) c.score = true →
        c.lastChar ∈ (best :: out).map Path.lastChar) ∧
      v.Perm s.args.cands ∧ v.Pairwise (fun a b => F64.le b.score a.score = true) ∧
      (∀ x : F64, v.filter (fun p => F64.feq p.score x) =
        s.args.cands.filter (fun p => F64.feq p.score x)) ∧
      v.head? = some best ∧ (best :: out).Sublist v ∧
      (∀ p ∈ best :: out, v.find? (fun q => q.lastChar = p.lastChar) = some p) ∧
      (∃ pre post, v = pre ++ post ∧ (best :: out).Sublist pre ∧
        ∀ q ∈ pre, q.lastChar ∈ (best :: out).map Path.lastChar)

/-- R1108, R1203: LM_LOAD of a valid map loads it unchanged; of any other it raises CFG_LM_INVALID. The
model's choices here: none supplied is invalid too (log entry 5), the lower bound is the value that R1108
prints (log entry 34), and by itself it takes the fault entry of log entry 7, but while FAULTED, where it
changes nothing (R104, R1210). -/
def Obligations.LmLoadRuns : Prop :=
  ∀ s : State,
    let valid : LmRecord → Prop := fun m => ∀ row ∈ m, row.1.length ≤ 1 ∧
      ∀ e ∈ row.2, e.1.length = 1 ∧ e.2.isFinite = true ∧
        F64.lt F64.lmBound e.2 = true ∧ F64.le e.2 F64.zero = true
    (∀ m, s.args.lm = some m → valid m →
      exec .lmLoad s = .next { s with dec := { s.dec with lm := m } }) ∧
    ((∀ m, s.args.lm = some m → ¬ valid m) →
      exec .lmLoad s = .next (if s.life = .faulted then s
        else { s with faultCode := 0x03, faultInfo := 0, life := .faulted, pc := s.pc + 1 }))

/-- R1110, R1111: the table gives each of the 54 characters its code, in order: a dash 3.0, a dot 1.0, the
gap 1.0 between; no two sequences are the same, with the counts by length that the rule gives; and the
sequence of any code of m >= 1 elements has length 2m - 1, its marks at the even positions and 1.0 at the
odd ones. -/
def Obligations.PatternsAreWellFormed : Prop :=
  (let chars := "ABCDEFGHIJKLMNOPQRSTUVWXYZ0123456789.,?'!/()&:;=+-_\"$@".toList
   let codes : List String :=
    [".-", "-...", "-.-.", "-..", ".", "..-.", "--.", "....", "..", ".---", "-.-",
     ".-..", "--", "-.", "---", ".--.", "--.-", ".-.", "...", "-", "..-", "...-", ".--",
     "-..-", "-.--", "--..", "-----", ".----", "..---", "...--", "....-", ".....",
     "-....", "--...", "---..", "----.", ".-.-.-", "--..--", "..--..", ".----.",
     "-.-.--", "-..-.", "-.--.", "-.--.-", ".-...", "---...", "-.-.-.", "-...-",
     ".-.-.", "-....-", "..--.-", ".-..-.", "...-..-", ".--.-."]
   chars.length = 54 ∧ codes.length = 54 ∧
   patterns = (chars.zip codes).map fun e =>
     (e.1, (e.2.toList.map fun m => if m = '-' then F64.three else F64.one).intersperse F64.one)) ∧
  patterns.length = 54 ∧ (patterns.map Prod.snd).Nodup ∧
  ([1, 3, 5, 7, 9, 11, 13].map fun n =>
    (patterns.filter fun e => e.2.length == n).length) = [2, 4, 8, 12, 15, 12, 1] ∧
  (∀ code : List Char, code ≠ [] → (sequenceOf code).length = 2 * code.length - 1) ∧
  (∀ (code : List Char) (i : Nat) (ch : Char), code[i]? = some ch →
    (sequenceOf code)[2 * i]? = some (if ch = '-' then F64.three else F64.one)) ∧
  (∀ (code : List Char) (i : Nat), i + 1 < code.length →
    (sequenceOf code)[2 * i + 1]? = some F64.one)

/-! ## The stages -/

/-- R420, R414: EMIT_TEXT sends what the best sentence adds to the last emission, or the whole of it, and
nothing where it is the same or empty; SYMBOL_STAGE runs the gap or the mark event, then EMIT_TEXT,
wherever a fixed pulse-buffer capacity is not exceeded (R206, R1208). -/
def Obligations.EmitTextAndSymbolStageRun : Prop :=
  (∀ (s : State) (p : Path) (ps : List Path), s.dec.paths = p :: ps →
    (p.sentence = s.dec.lastEmitted → exec .emitText s = .next s) ∧
    (∀ frag, p.sentence = s.dec.lastEmitted ++ frag → frag ≠ [] →
      exec .emitText s = .next
        { s with dec := { s.dec with lastEmitted := p.sentence, out := s.dec.out ++ [frag] } }) ∧
    (¬ s.dec.lastEmitted <+: p.sentence →
      exec .emitText s = .next
        { s with dec := { s.dec with
            lastEmitted := p.sentence
            out := if p.sentence = [] then s.dec.out else s.dec.out ++ [p.sentence] } })) ∧
  (∀ s : State, s.args.flag = false → exec .symbolStage s = .next
    { s with sym := { s.sym with lastGapMs := s.sym.lastGapMs.add s.args.x },
             dec := emitText s.dec }) ∧
  (∀ s : State, s.args.flag = true → ¬ MarkEndOverflows s →
    ∃ t, symMarkEnd s s.args.x = .ok t ∧
      exec .symbolStage s = .next { t with dec := emitText t.dec })

/-- R403: ENV_STAGE updates the thresholds with the operations of the configured strategy only, then steps
the trigger on the same sample against the updated pair, then runs the symbol stage on an event
(below the counter's limit, and wherever a fixed pulse-buffer capacity is not exceeded, R206, R1208). -/
def Obligations.EnvStageRuns : Prop :=
  ∀ s : State, s.trig.total ≠ BitVec.allOnes 64 →
    ¬ (EndsMark s s.args.x ∧ MarkEndOverflows s) →
    let e := s.args.x
    let pushed := histPush s.cfg s.thr e
    let g := suggestion s.cfg pushed.1
    let ath := athUpdate s e
    let s1 : State :=
      if s.cfg.thresholdStrategy = .percentile then
        if pushed.2 then
          { s with thr := { pushed.1 with high := (pctToHl g).1, low := (pctToHl g).2 },
                   adv := if g.squelch = true ∧ s.adv.squelch ≠ BitVec.allOnes 64
                     then { s.adv with squelch := s.adv.squelch + 1 } else s.adv }
        else { s with thr := pushed.1 }
      else
        { s with thr := { ath.1.thr with high := ath.2.1, low := ath.2.2 }, adv := ath.1.adv }
    ∃ t ev, trigStep s.cfg s.trig e s1.thr.high s1.thr.low = .ok (t, ev) ∧
      (ev = none → exec .envStage s = .next { s1 with trig := t }) ∧
      (∀ x, ev = some x → ∃ u, symbolStage { s1 with trig := t } x = .ok u ∧
        exec .envStage s = .next u)

/-! ## The two schedules -/

/-- R422, R421, R224: the machine's runs are the executions of R422, sequences of atomic steps, each one host
command or one enabled monitor step. A run of `n` steps whose turns are host commands and monitor steps
is such an execution (waiting for a whole word and a monitor turn that is not enabled are no steps of it);
under REFERENCE the steps are host commands only, CHUNK_END with the run of R421 inside it, so every
REFERENCE execution is a FREE execution (log entry 33). And every such execution, with its steps in any
order, is a run of the machine, with the turns that its steps name. The cancellation is false while RUNNING
(R405: FLUSH alone sets it), in every state that a run reaches. -/
def Obligations.ReferenceRunsAreFreeRuns : Prop :=
  (∀ (n : Nat) (s t : State), ScheduleTurns s → runSteps n s = some t →
    ∃ ks : List ScheduleStep, ks.length ≤ n ∧
      freeExecution ks { s with turns := [] } = some { t with turns := [] } ∧
      (s.params.schedule = .reference → ∀ k ∈ ks, k = .command)) ∧
  (∀ (ks : List ScheduleStep) (s t : State), s.turns = [] → freeExecution ks s = some t →
    runSteps ks.length { s with turns := ks.map ScheduleStep.turn } = some t) ∧
  (∀ s t : State, NotCancelledWhileRunning s → step s = .next t → NotCancelledWhileRunning t) ∧
  NotCancelledWhileRunning State.reset

/-! ## Invariants that every step keeps -/

/-- R130, R140, R162, R203, R122, R132: every step keeps the three rings in their form and the bounded
counts in their bounds. -/
def Obligations.StepKeepsRingsAndCounts : Prop :=
  ∀ s t : State, RingsForm s → CountsBounded s → step s = .next t → RingsForm t ∧ CountsBounded t

/-- R150: every step keeps the order of the trigger's stamps. -/
def Obligations.StepKeepsStampsOrdered : Prop :=
  ∀ s t : State, StampsOrdered s.trig → step s = .next t → StampsOrdered t.trig

/-- R1112: every step keeps the beam in non-increasing order of score, at most K paths, each within the
prune threshold of the first, all last characters distinct. And it keeps at least one path, given K >= 1,
a prune threshold that is finite and not negative (both are checked by RESET), and scores that are no
NaN where the step decodes: on the latch's vector, or on the pulse buffer as it is or as SETTLE_MARK
leaves it. -/
def Obligations.StepKeepsBeamOrdered : Prop :=
  (∀ s t : State, BeamOrdered s.cfg.beamWidth s.cfg.pruneThreshold s.dec.paths →
    step s = .next t → BeamOrdered t.cfg.beamWidth t.cfg.pruneThreshold t.dec.paths) ∧
  (∀ s t : State, s.dec.paths ≠ [] → 1 ≤ s.cfg.beamWidth → s.cfg.pruneThreshold.isFinite = true →
    F64.le F64.zero s.cfg.pruneThreshold = true →
    ScoresAreNumbers s s.args.vec → ScoresAreNumbers s s.sym.pulseBuf →
    (∀ u, settleMark s = .ok u → ScoresAreNumbers u u.sym.pulseBuf) →
    step s = .next t → t.dec.paths ≠ [])

/-- R1008, R1000: every step keeps the unit time at 10 ms or more (not below it), RESET included. -/
def Obligations.StepKeepsUnitFloor : Prop :=
  ∀ s t : State, UnitAtLeastTen s → step s = .next t → UnitAtLeastTen t

/-- R104, R1209, R1210: every step keeps the fault code non-zero exactly in FAULTED. -/
def Obligations.StepKeepsFaultCodeMeaning : Prop :=
  ∀ s t : State, (s.faultCode ≠ 0 ↔ s.life = .faulted) → step s = .next t →
    (t.faultCode ≠ 0 ↔ t.life = .faulted)

/-- R1300: power-on, with the values that log entry 1 names, meets the five invariants. -/
def Obligations.PowerOnMeetsTheInvariants : Prop :=
  RingsForm State.reset ∧ CountsBounded State.reset ∧ StampsOrdered State.reset.trig ∧
  BeamOrdered State.reset.cfg.beamWidth State.reset.cfg.pruneThreshold State.reset.dec.paths ∧
  UnitAtLeastTen State.reset ∧ (State.reset.faultCode ≠ 0 ↔ State.reset.life = .faulted)

end Statements
end

