-- ==== Sys2Proof/Laws/State.lean ====
section
/-! SUPPORT. The fields of a state after each named update, one lemma per field per update, so that no
later proof unfolds a record update. -/

namespace Sys2Proof.Laws

open Sys2Proof Sys2Proof.Machine

variable (s : State)

/-! ## bumpPc -/

@[simp] theorem bumpPc_life : (bumpPc s).life = s.life := rfl
@[simp] theorem bumpPc_pc : (bumpPc s).pc = s.pc + 1 := rfl
@[simp] theorem bumpPc_faultCode : (bumpPc s).faultCode = s.faultCode := rfl
@[simp] theorem bumpPc_faultInfo : (bumpPc s).faultInfo = s.faultInfo := rfl
@[simp] theorem bumpPc_adv : (bumpPc s).adv = s.adv := rfl
@[simp] theorem bumpPc_cfg : (bumpPc s).cfg = s.cfg := rfl
@[simp] theorem bumpPc_demod : (bumpPc s).demod = s.demod := rfl
@[simp] theorem bumpPc_mon : (bumpPc s).mon = s.mon := rfl
@[simp] theorem bumpPc_link : (bumpPc s).link = s.link := rfl
@[simp] theorem bumpPc_thr : (bumpPc s).thr = s.thr := rfl
@[simp] theorem bumpPc_trig : (bumpPc s).trig = s.trig := rfl
@[simp] theorem bumpPc_sym : (bumpPc s).sym = s.sym := rfl
@[simp] theorem bumpPc_dec : (bumpPc s).dec = s.dec := rfl
@[simp] theorem bumpPc_port : (bumpPc s).port = s.port := rfl
@[simp] theorem bumpPc_cfgIn : (bumpPc s).cfgIn = s.cfgIn := rfl
@[simp] theorem bumpPc_resp : (bumpPc s).resp = s.resp := rfl
@[simp] theorem bumpPc_turns : (bumpPc s).turns = s.turns := rfl
@[simp] theorem bumpPc_args : (bumpPc s).args = s.args := rfl
@[simp] theorem bumpPc_ret : (bumpPc s).ret = s.ret := rfl
@[simp] theorem bumpPc_params : (bumpPc s).params = s.params := rfl

/-! ## takeFault -/

@[simp] theorem takeFault_life (c : FaultCode) (i : BitVec 32) :
    (takeFault c i s).life = .faulted := rfl
@[simp] theorem takeFault_pc (c : FaultCode) (i : BitVec 32) :
    (takeFault c i s).pc = s.pc + 1 := rfl
@[simp] theorem takeFault_faultCode (c : FaultCode) (i : BitVec 32) :
    (takeFault c i s).faultCode = c.code := rfl
@[simp] theorem takeFault_faultInfo (c : FaultCode) (i : BitVec 32) :
    (takeFault c i s).faultInfo = i := rfl
@[simp] theorem takeFault_adv (c : FaultCode) (i : BitVec 32) : (takeFault c i s).adv = s.adv := rfl
@[simp] theorem takeFault_cfg (c : FaultCode) (i : BitVec 32) : (takeFault c i s).cfg = s.cfg := rfl
@[simp] theorem takeFault_demod (c : FaultCode) (i : BitVec 32) :
    (takeFault c i s).demod = s.demod := rfl
@[simp] theorem takeFault_mon (c : FaultCode) (i : BitVec 32) : (takeFault c i s).mon = s.mon := rfl
@[simp] theorem takeFault_link (c : FaultCode) (i : BitVec 32) :
    (takeFault c i s).link = s.link := rfl
@[simp] theorem takeFault_thr (c : FaultCode) (i : BitVec 32) : (takeFault c i s).thr = s.thr := rfl
@[simp] theorem takeFault_trig (c : FaultCode) (i : BitVec 32) :
    (takeFault c i s).trig = s.trig := rfl
@[simp] theorem takeFault_sym (c : FaultCode) (i : BitVec 32) : (takeFault c i s).sym = s.sym := rfl
@[simp] theorem takeFault_dec (c : FaultCode) (i : BitVec 32) : (takeFault c i s).dec = s.dec := rfl
@[simp] theorem takeFault_port (c : FaultCode) (i : BitVec 32) :
    (takeFault c i s).port = s.port := rfl
@[simp] theorem takeFault_cfgIn (c : FaultCode) (i : BitVec 32) :
    (takeFault c i s).cfgIn = s.cfgIn := rfl
@[simp] theorem takeFault_resp (c : FaultCode) (i : BitVec 32) :
    (takeFault c i s).resp = s.resp := rfl
@[simp] theorem takeFault_turns (c : FaultCode) (i : BitVec 32) :
    (takeFault c i s).turns = s.turns := rfl
@[simp] theorem takeFault_args (c : FaultCode) (i : BitVec 32) :
    (takeFault c i s).args = s.args := rfl
@[simp] theorem takeFault_ret (c : FaultCode) (i : BitVec 32) : (takeFault c i s).ret = s.ret := rfl
@[simp] theorem takeFault_params (c : FaultCode) (i : BitVec 32) :
    (takeFault c i s).params = s.params := rfl

/-! ## leaveFault -/

@[simp] theorem leaveFault_life : (leaveFault s).life = .running := rfl
@[simp] theorem leaveFault_pc : (leaveFault s).pc = s.pc := rfl
@[simp] theorem leaveFault_faultCode : (leaveFault s).faultCode = 0 := rfl
@[simp] theorem leaveFault_faultInfo : (leaveFault s).faultInfo = 0 := rfl
@[simp] theorem leaveFault_adv : (leaveFault s).adv = s.adv := rfl
@[simp] theorem leaveFault_cfg : (leaveFault s).cfg = s.cfg := rfl
@[simp] theorem leaveFault_demod : (leaveFault s).demod = s.demod := rfl
@[simp] theorem leaveFault_mon : (leaveFault s).mon = s.mon := rfl
@[simp] theorem leaveFault_link : (leaveFault s).link = s.link := rfl
@[simp] theorem leaveFault_thr : (leaveFault s).thr = s.thr := rfl
@[simp] theorem leaveFault_trig : (leaveFault s).trig = s.trig := rfl
@[simp] theorem leaveFault_sym : (leaveFault s).sym = s.sym := rfl
@[simp] theorem leaveFault_dec : (leaveFault s).dec = s.dec := rfl
@[simp] theorem leaveFault_port : (leaveFault s).port = s.port := rfl
@[simp] theorem leaveFault_cfgIn : (leaveFault s).cfgIn = s.cfgIn := rfl
@[simp] theorem leaveFault_resp : (leaveFault s).resp = s.resp := rfl
@[simp] theorem leaveFault_turns : (leaveFault s).turns = s.turns := rfl
@[simp] theorem leaveFault_args : (leaveFault s).args = s.args := rfl
@[simp] theorem leaveFault_ret : (leaveFault s).ret = s.ret := rfl
@[simp] theorem leaveFault_params : (leaveFault s).params = s.params := rfl

/-! ## countChunkDropped -/

@[simp] theorem countChunkDropped_life : (countChunkDropped s).life = s.life := rfl
@[simp] theorem countChunkDropped_pc : (countChunkDropped s).pc = s.pc := rfl
@[simp] theorem countChunkDropped_faultCode : (countChunkDropped s).faultCode = s.faultCode := rfl
@[simp] theorem countChunkDropped_faultInfo : (countChunkDropped s).faultInfo = s.faultInfo := rfl
@[simp] theorem countChunkDropped_adv :
    (countChunkDropped s).adv = { s.adv with chunkDropped := satInc s.adv.chunkDropped } := rfl
@[simp] theorem countChunkDropped_cfg : (countChunkDropped s).cfg = s.cfg := rfl
@[simp] theorem countChunkDropped_demod : (countChunkDropped s).demod = s.demod := rfl
@[simp] theorem countChunkDropped_mon : (countChunkDropped s).mon = s.mon := rfl
@[simp] theorem countChunkDropped_link : (countChunkDropped s).link = s.link := rfl
@[simp] theorem countChunkDropped_thr : (countChunkDropped s).thr = s.thr := rfl
@[simp] theorem countChunkDropped_trig : (countChunkDropped s).trig = s.trig := rfl
@[simp] theorem countChunkDropped_sym : (countChunkDropped s).sym = s.sym := rfl
@[simp] theorem countChunkDropped_dec : (countChunkDropped s).dec = s.dec := rfl
@[simp] theorem countChunkDropped_port : (countChunkDropped s).port = s.port := rfl
@[simp] theorem countChunkDropped_cfgIn : (countChunkDropped s).cfgIn = s.cfgIn := rfl
@[simp] theorem countChunkDropped_resp : (countChunkDropped s).resp = s.resp := rfl
@[simp] theorem countChunkDropped_turns : (countChunkDropped s).turns = s.turns := rfl
@[simp] theorem countChunkDropped_args : (countChunkDropped s).args = s.args := rfl
@[simp] theorem countChunkDropped_ret : (countChunkDropped s).ret = s.ret := rfl
@[simp] theorem countChunkDropped_params : (countChunkDropped s).params = s.params := rfl

/-! ## countUnitReset -/

@[simp] theorem countUnitReset_life : (countUnitReset s).life = s.life := rfl
@[simp] theorem countUnitReset_pc : (countUnitReset s).pc = s.pc := rfl
@[simp] theorem countUnitReset_faultCode : (countUnitReset s).faultCode = s.faultCode := rfl
@[simp] theorem countUnitReset_faultInfo : (countUnitReset s).faultInfo = s.faultInfo := rfl
@[simp] theorem countUnitReset_adv :
    (countUnitReset s).adv = { s.adv with unitReset := satInc s.adv.unitReset } := rfl
@[simp] theorem countUnitReset_cfg : (countUnitReset s).cfg = s.cfg := rfl
@[simp] theorem countUnitReset_demod : (countUnitReset s).demod = s.demod := rfl
@[simp] theorem countUnitReset_mon : (countUnitReset s).mon = s.mon := rfl
@[simp] theorem countUnitReset_link : (countUnitReset s).link = s.link := rfl
@[simp] theorem countUnitReset_thr : (countUnitReset s).thr = s.thr := rfl
@[simp] theorem countUnitReset_trig : (countUnitReset s).trig = s.trig := rfl
@[simp] theorem countUnitReset_sym : (countUnitReset s).sym = s.sym := rfl
@[simp] theorem countUnitReset_dec : (countUnitReset s).dec = s.dec := rfl
@[simp] theorem countUnitReset_port : (countUnitReset s).port = s.port := rfl
@[simp] theorem countUnitReset_cfgIn : (countUnitReset s).cfgIn = s.cfgIn := rfl
@[simp] theorem countUnitReset_resp : (countUnitReset s).resp = s.resp := rfl
@[simp] theorem countUnitReset_turns : (countUnitReset s).turns = s.turns := rfl
@[simp] theorem countUnitReset_args : (countUnitReset s).args = s.args := rfl
@[simp] theorem countUnitReset_ret : (countUnitReset s).ret = s.ret := rfl
@[simp] theorem countUnitReset_params : (countUnitReset s).params = s.params := rfl

/-! ## countDecoderStarved -/

@[simp] theorem countDecoderStarved_life : (countDecoderStarved s).life = s.life := rfl
@[simp] theorem countDecoderStarved_pc : (countDecoderStarved s).pc = s.pc := rfl
@[simp] theorem countDecoderStarved_faultCode :
    (countDecoderStarved s).faultCode = s.faultCode := rfl
@[simp] theorem countDecoderStarved_faultInfo :
    (countDecoderStarved s).faultInfo = s.faultInfo := rfl
@[simp] theorem countDecoderStarved_adv :
    (countDecoderStarved s).adv = { s.adv with decoderStarved := satInc s.adv.decoderStarved } := rfl
@[simp] theorem countDecoderStarved_cfg : (countDecoderStarved s).cfg = s.cfg := rfl
@[simp] theorem countDecoderStarved_demod : (countDecoderStarved s).demod = s.demod := rfl
@[simp] theorem countDecoderStarved_mon : (countDecoderStarved s).mon = s.mon := rfl
@[simp] theorem countDecoderStarved_link : (countDecoderStarved s).link = s.link := rfl
@[simp] theorem countDecoderStarved_thr : (countDecoderStarved s).thr = s.thr := rfl
@[simp] theorem countDecoderStarved_trig : (countDecoderStarved s).trig = s.trig := rfl
@[simp] theorem countDecoderStarved_sym : (countDecoderStarved s).sym = s.sym := rfl
@[simp] theorem countDecoderStarved_dec : (countDecoderStarved s).dec = s.dec := rfl
@[simp] theorem countDecoderStarved_port : (countDecoderStarved s).port = s.port := rfl
@[simp] theorem countDecoderStarved_cfgIn : (countDecoderStarved s).cfgIn = s.cfgIn := rfl
@[simp] theorem countDecoderStarved_resp : (countDecoderStarved s).resp = s.resp := rfl
@[simp] theorem countDecoderStarved_turns : (countDecoderStarved s).turns = s.turns := rfl
@[simp] theorem countDecoderStarved_args : (countDecoderStarved s).args = s.args := rfl
@[simp] theorem countDecoderStarved_ret : (countDecoderStarved s).ret = s.ret := rfl
@[simp] theorem countDecoderStarved_params : (countDecoderStarved s).params = s.params := rfl

/-! ## countSquelch -/

@[simp] theorem countSquelch_life : (countSquelch s).life = s.life := rfl
@[simp] theorem countSquelch_pc : (countSquelch s).pc = s.pc := rfl
@[simp] theorem countSquelch_faultCode : (countSquelch s).faultCode = s.faultCode := rfl
@[simp] theorem countSquelch_faultInfo : (countSquelch s).faultInfo = s.faultInfo := rfl
@[simp] theorem countSquelch_adv :
    (countSquelch s).adv = { s.adv with squelch := satInc s.adv.squelch } := rfl
@[simp] theorem countSquelch_cfg : (countSquelch s).cfg = s.cfg := rfl
@[simp] theorem countSquelch_demod : (countSquelch s).demod = s.demod := rfl
@[simp] theorem countSquelch_mon : (countSquelch s).mon = s.mon := rfl
@[simp] theorem countSquelch_link : (countSquelch s).link = s.link := rfl
@[simp] theorem countSquelch_thr : (countSquelch s).thr = s.thr := rfl
@[simp] theorem countSquelch_trig : (countSquelch s).trig = s.trig := rfl
@[simp] theorem countSquelch_sym : (countSquelch s).sym = s.sym := rfl
@[simp] theorem countSquelch_dec : (countSquelch s).dec = s.dec := rfl
@[simp] theorem countSquelch_port : (countSquelch s).port = s.port := rfl
@[simp] theorem countSquelch_cfgIn : (countSquelch s).cfgIn = s.cfgIn := rfl
@[simp] theorem countSquelch_resp : (countSquelch s).resp = s.resp := rfl
@[simp] theorem countSquelch_turns : (countSquelch s).turns = s.turns := rfl
@[simp] theorem countSquelch_args : (countSquelch s).args = s.args := rfl
@[simp] theorem countSquelch_ret : (countSquelch s).ret = s.ret := rfl
@[simp] theorem countSquelch_params : (countSquelch s).params = s.params := rfl

/-! ## dropPartialWord -/

@[simp] theorem dropPartialWord_life : (dropPartialWord s).life = s.life := rfl
@[simp] theorem dropPartialWord_pc : (dropPartialWord s).pc = s.pc := rfl
@[simp] theorem dropPartialWord_faultCode : (dropPartialWord s).faultCode = s.faultCode := rfl
@[simp] theorem dropPartialWord_faultInfo : (dropPartialWord s).faultInfo = s.faultInfo := rfl
@[simp] theorem dropPartialWord_adv : (dropPartialWord s).adv = s.adv := rfl
@[simp] theorem dropPartialWord_cfg : (dropPartialWord s).cfg = s.cfg := rfl
@[simp] theorem dropPartialWord_demod : (dropPartialWord s).demod = s.demod := rfl
@[simp] theorem dropPartialWord_mon : (dropPartialWord s).mon = s.mon := rfl
@[simp] theorem dropPartialWord_link : (dropPartialWord s).link = s.link := rfl
@[simp] theorem dropPartialWord_thr : (dropPartialWord s).thr = s.thr := rfl
@[simp] theorem dropPartialWord_trig : (dropPartialWord s).trig = s.trig := rfl
@[simp] theorem dropPartialWord_sym : (dropPartialWord s).sym = s.sym := rfl
@[simp] theorem dropPartialWord_dec : (dropPartialWord s).dec = s.dec := rfl
@[simp] theorem dropPartialWord_port :
    (dropPartialWord s).port = s.port.take (s.port.length / 8 * 8) := rfl
@[simp] theorem dropPartialWord_cfgIn : (dropPartialWord s).cfgIn = s.cfgIn := rfl
@[simp] theorem dropPartialWord_resp : (dropPartialWord s).resp = s.resp := rfl
@[simp] theorem dropPartialWord_turns : (dropPartialWord s).turns = s.turns := rfl
@[simp] theorem dropPartialWord_args : (dropPartialWord s).args = s.args := rfl
@[simp] theorem dropPartialWord_ret : (dropPartialWord s).ret = s.ret := rfl
@[simp] theorem dropPartialWord_params : (dropPartialWord s).params = s.params := rfl

/-! ## takeRecord -/

@[simp] theorem takeRecord_life : (takeRecord s).life = s.life := rfl
@[simp] theorem takeRecord_pc : (takeRecord s).pc = s.pc := rfl
@[simp] theorem takeRecord_faultCode : (takeRecord s).faultCode = s.faultCode := rfl
@[simp] theorem takeRecord_faultInfo : (takeRecord s).faultInfo = s.faultInfo := rfl
@[simp] theorem takeRecord_adv : (takeRecord s).adv = s.adv := rfl
@[simp] theorem takeRecord_cfg : (takeRecord s).cfg = s.cfg := rfl
@[simp] theorem takeRecord_demod : (takeRecord s).demod = s.demod := rfl
@[simp] theorem takeRecord_mon : (takeRecord s).mon = s.mon := rfl
@[simp] theorem takeRecord_link : (takeRecord s).link = s.link := rfl
@[simp] theorem takeRecord_thr : (takeRecord s).thr = s.thr := rfl
@[simp] theorem takeRecord_trig : (takeRecord s).trig = s.trig := rfl
@[simp] theorem takeRecord_sym : (takeRecord s).sym = s.sym := rfl
@[simp] theorem takeRecord_dec : (takeRecord s).dec = s.dec := rfl
@[simp] theorem takeRecord_port : (takeRecord s).port = s.port := rfl
@[simp] theorem takeRecord_cfgIn : (takeRecord s).cfgIn = s.cfgIn.tail := rfl
@[simp] theorem takeRecord_resp : (takeRecord s).resp = s.resp := rfl
@[simp] theorem takeRecord_turns : (takeRecord s).turns = s.turns := rfl
@[simp] theorem takeRecord_args : (takeRecord s).args = s.args := rfl
@[simp] theorem takeRecord_ret : (takeRecord s).ret = s.ret := rfl
@[simp] theorem takeRecord_params : (takeRecord s).params = s.params := rfl

/-! ## respond -/

@[simp] theorem respond_life (r : Response) : (respond r s).life = s.life := rfl
@[simp] theorem respond_pc (r : Response) : (respond r s).pc = s.pc := rfl
@[simp] theorem respond_faultCode (r : Response) : (respond r s).faultCode = s.faultCode := rfl
@[simp] theorem respond_faultInfo (r : Response) : (respond r s).faultInfo = s.faultInfo := rfl
@[simp] theorem respond_adv (r : Response) : (respond r s).adv = s.adv := rfl
@[simp] theorem respond_cfg (r : Response) : (respond r s).cfg = s.cfg := rfl
@[simp] theorem respond_demod (r : Response) : (respond r s).demod = s.demod := rfl
@[simp] theorem respond_mon (r : Response) : (respond r s).mon = s.mon := rfl
@[simp] theorem respond_link (r : Response) : (respond r s).link = s.link := rfl
@[simp] theorem respond_thr (r : Response) : (respond r s).thr = s.thr := rfl
@[simp] theorem respond_trig (r : Response) : (respond r s).trig = s.trig := rfl
@[simp] theorem respond_sym (r : Response) : (respond r s).sym = s.sym := rfl
@[simp] theorem respond_dec (r : Response) : (respond r s).dec = s.dec := rfl
@[simp] theorem respond_port (r : Response) : (respond r s).port = s.port := rfl
@[simp] theorem respond_cfgIn (r : Response) : (respond r s).cfgIn = s.cfgIn := rfl
@[simp] theorem respond_resp (r : Response) : (respond r s).resp = s.resp ++ [r] := rfl
@[simp] theorem respond_turns (r : Response) : (respond r s).turns = s.turns := rfl
@[simp] theorem respond_args (r : Response) : (respond r s).args = s.args := rfl
@[simp] theorem respond_ret (r : Response) : (respond r s).ret = s.ret := rfl
@[simp] theorem respond_params (r : Response) : (respond r s).params = s.params := rfl

/-! ## setRet -/

@[simp] theorem setRet_life (r : Ret) : (setRet r s).life = s.life := rfl
@[simp] theorem setRet_pc (r : Ret) : (setRet r s).pc = s.pc := rfl
@[simp] theorem setRet_faultCode (r : Ret) : (setRet r s).faultCode = s.faultCode := rfl
@[simp] theorem setRet_faultInfo (r : Ret) : (setRet r s).faultInfo = s.faultInfo := rfl
@[simp] theorem setRet_adv (r : Ret) : (setRet r s).adv = s.adv := rfl
@[simp] theorem setRet_cfg (r : Ret) : (setRet r s).cfg = s.cfg := rfl
@[simp] theorem setRet_demod (r : Ret) : (setRet r s).demod = s.demod := rfl
@[simp] theorem setRet_mon (r : Ret) : (setRet r s).mon = s.mon := rfl
@[simp] theorem setRet_link (r : Ret) : (setRet r s).link = s.link := rfl
@[simp] theorem setRet_thr (r : Ret) : (setRet r s).thr = s.thr := rfl
@[simp] theorem setRet_trig (r : Ret) : (setRet r s).trig = s.trig := rfl
@[simp] theorem setRet_sym (r : Ret) : (setRet r s).sym = s.sym := rfl
@[simp] theorem setRet_dec (r : Ret) : (setRet r s).dec = s.dec := rfl
@[simp] theorem setRet_port (r : Ret) : (setRet r s).port = s.port := rfl
@[simp] theorem setRet_cfgIn (r : Ret) : (setRet r s).cfgIn = s.cfgIn := rfl
@[simp] theorem setRet_resp (r : Ret) : (setRet r s).resp = s.resp := rfl
@[simp] theorem setRet_turns (r : Ret) : (setRet r s).turns = s.turns := rfl
@[simp] theorem setRet_args (r : Ret) : (setRet r s).args = s.args := rfl
@[simp] theorem setRet_ret (r : Ret) : (setRet r s).ret = r := rfl
@[simp] theorem setRet_params (r : Ret) : (setRet r s).params = s.params := rfl

/-! ## setThresholds -/

@[simp] theorem setThresholds_life (h l : F64) : (setThresholds h l s).life = s.life := rfl
@[simp] theorem setThresholds_pc (h l : F64) : (setThresholds h l s).pc = s.pc := rfl
@[simp] theorem setThresholds_faultCode (h l : F64) :
    (setThresholds h l s).faultCode = s.faultCode := rfl
@[simp] theorem setThresholds_faultInfo (h l : F64) :
    (setThresholds h l s).faultInfo = s.faultInfo := rfl
@[simp] theorem setThresholds_adv (h l : F64) : (setThresholds h l s).adv = s.adv := rfl
@[simp] theorem setThresholds_cfg (h l : F64) : (setThresholds h l s).cfg = s.cfg := rfl
@[simp] theorem setThresholds_demod (h l : F64) : (setThresholds h l s).demod = s.demod := rfl
@[simp] theorem setThresholds_mon (h l : F64) : (setThresholds h l s).mon = s.mon := rfl
@[simp] theorem setThresholds_link (h l : F64) : (setThresholds h l s).link = s.link := rfl
@[simp] theorem setThresholds_thr (h l : F64) :
    (setThresholds h l s).thr = { s.thr with high := h, low := l } := rfl
@[simp] theorem setThresholds_trig (h l : F64) : (setThresholds h l s).trig = s.trig := rfl
@[simp] theorem setThresholds_sym (h l : F64) : (setThresholds h l s).sym = s.sym := rfl
@[simp] theorem setThresholds_dec (h l : F64) : (setThresholds h l s).dec = s.dec := rfl
@[simp] theorem setThresholds_port (h l : F64) : (setThresholds h l s).port = s.port := rfl
@[simp] theorem setThresholds_cfgIn (h l : F64) : (setThresholds h l s).cfgIn = s.cfgIn := rfl
@[simp] theorem setThresholds_resp (h l : F64) : (setThresholds h l s).resp = s.resp := rfl
@[simp] theorem setThresholds_turns (h l : F64) : (setThresholds h l s).turns = s.turns := rfl
@[simp] theorem setThresholds_args (h l : F64) : (setThresholds h l s).args = s.args := rfl
@[simp] theorem setThresholds_ret (h l : F64) : (setThresholds h l s).ret = s.ret := rfl
@[simp] theorem setThresholds_params (h l : F64) : (setThresholds h l s).params = s.params := rfl

/-! ## emit -/

@[simp] theorem emit_life : (emit s).life = s.life := rfl
@[simp] theorem emit_pc : (emit s).pc = s.pc := rfl
@[simp] theorem emit_faultCode : (emit s).faultCode = s.faultCode := rfl
@[simp] theorem emit_faultInfo : (emit s).faultInfo = s.faultInfo := rfl
@[simp] theorem emit_adv : (emit s).adv = s.adv := rfl
@[simp] theorem emit_cfg : (emit s).cfg = s.cfg := rfl
@[simp] theorem emit_demod : (emit s).demod = s.demod := rfl
@[simp] theorem emit_mon : (emit s).mon = s.mon := rfl
@[simp] theorem emit_link : (emit s).link = s.link := rfl
@[simp] theorem emit_thr : (emit s).thr = s.thr := rfl
@[simp] theorem emit_trig : (emit s).trig = s.trig := rfl
@[simp] theorem emit_sym : (emit s).sym = s.sym := rfl
@[simp] theorem emit_dec : (emit s).dec = emitText s.dec := rfl
@[simp] theorem emit_port : (emit s).port = s.port := rfl
@[simp] theorem emit_cfgIn : (emit s).cfgIn = s.cfgIn := rfl
@[simp] theorem emit_resp : (emit s).resp = s.resp := rfl
@[simp] theorem emit_turns : (emit s).turns = s.turns := rfl
@[simp] theorem emit_args : (emit s).args = s.args := rfl
@[simp] theorem emit_ret : (emit s).ret = s.ret := rfl
@[simp] theorem emit_params : (emit s).params = s.params := rfl

/-! ## symGapEnd -/

@[simp] theorem symGapEnd_life (d : F64) : (symGapEnd s d).life = s.life := rfl
@[simp] theorem symGapEnd_pc (d : F64) : (symGapEnd s d).pc = s.pc := rfl
@[simp] theorem symGapEnd_faultCode (d : F64) : (symGapEnd s d).faultCode = s.faultCode := rfl
@[simp] theorem symGapEnd_faultInfo (d : F64) : (symGapEnd s d).faultInfo = s.faultInfo := rfl
@[simp] theorem symGapEnd_adv (d : F64) : (symGapEnd s d).adv = s.adv := rfl
@[simp] theorem symGapEnd_cfg (d : F64) : (symGapEnd s d).cfg = s.cfg := rfl
@[simp] theorem symGapEnd_demod (d : F64) : (symGapEnd s d).demod = s.demod := rfl
@[simp] theorem symGapEnd_mon (d : F64) : (symGapEnd s d).mon = s.mon := rfl
@[simp] theorem symGapEnd_link (d : F64) : (symGapEnd s d).link = s.link := rfl
@[simp] theorem symGapEnd_thr (d : F64) : (symGapEnd s d).thr = s.thr := rfl
@[simp] theorem symGapEnd_trig (d : F64) : (symGapEnd s d).trig = s.trig := rfl
@[simp] theorem symGapEnd_sym (d : F64) :
    (symGapEnd s d).sym = { s.sym with lastGapMs := s.sym.lastGapMs.add d } := rfl
@[simp] theorem symGapEnd_dec (d : F64) : (symGapEnd s d).dec = s.dec := rfl
@[simp] theorem symGapEnd_port (d : F64) : (symGapEnd s d).port = s.port := rfl
@[simp] theorem symGapEnd_cfgIn (d : F64) : (symGapEnd s d).cfgIn = s.cfgIn := rfl
@[simp] theorem symGapEnd_resp (d : F64) : (symGapEnd s d).resp = s.resp := rfl
@[simp] theorem symGapEnd_turns (d : F64) : (symGapEnd s d).turns = s.turns := rfl
@[simp] theorem symGapEnd_args (d : F64) : (symGapEnd s d).args = s.args := rfl
@[simp] theorem symGapEnd_ret (d : F64) : (symGapEnd s d).ret = s.ret := rfl
@[simp] theorem symGapEnd_params (d : F64) : (symGapEnd s d).params = s.params := rfl

/-! ## stageMark -/

@[simp] theorem stageMark_life (d : F64) : (stageMark s d).life = s.life := rfl
@[simp] theorem stageMark_pc (d : F64) : (stageMark s d).pc = s.pc := rfl
@[simp] theorem stageMark_faultCode (d : F64) : (stageMark s d).faultCode = s.faultCode := rfl
@[simp] theorem stageMark_faultInfo (d : F64) : (stageMark s d).faultInfo = s.faultInfo := rfl
@[simp] theorem stageMark_adv (d : F64) : (stageMark s d).adv = s.adv := rfl
@[simp] theorem stageMark_cfg (d : F64) : (stageMark s d).cfg = s.cfg := rfl
@[simp] theorem stageMark_demod (d : F64) : (stageMark s d).demod = s.demod := rfl
@[simp] theorem stageMark_mon (d : F64) : (stageMark s d).mon = s.mon := rfl
@[simp] theorem stageMark_link (d : F64) : (stageMark s d).link = s.link := rfl
@[simp] theorem stageMark_thr (d : F64) : (stageMark s d).thr = s.thr := rfl
@[simp] theorem stageMark_trig (d : F64) : (stageMark s d).trig = s.trig := rfl
@[simp] theorem stageMark_sym (d : F64) :
    (stageMark s d).sym = { s.sym with pendingMarkMs := d, lastGapMs := F64.zero } := rfl
@[simp] theorem stageMark_dec (d : F64) : (stageMark s d).dec = s.dec := rfl
@[simp] theorem stageMark_port (d : F64) : (stageMark s d).port = s.port := rfl
@[simp] theorem stageMark_cfgIn (d : F64) : (stageMark s d).cfgIn = s.cfgIn := rfl
@[simp] theorem stageMark_resp (d : F64) : (stageMark s d).resp = s.resp := rfl
@[simp] theorem stageMark_turns (d : F64) : (stageMark s d).turns = s.turns := rfl
@[simp] theorem stageMark_args (d : F64) : (stageMark s d).args = s.args := rfl
@[simp] theorem stageMark_ret (d : F64) : (stageMark s d).ret = s.ret := rfl
@[simp] theorem stageMark_params (d : F64) : (stageMark s d).params = s.params := rfl

end Sys2Proof.Laws
end

