-- ==== Sys2Proof/Laws/Acceptance.lean ====
section
/-! SUPPORT. What the acceptance of a command, the end of a micro-op and a step can do: one lemma per
case, and one inversion lemma each. -/

namespace Sys2Proof.Laws

open Sys2Proof Sys2Proof.Machine

variable {op : BitVec 8} {body : State → Except FaultCode State} {s t : State} {c : FaultCode}

theorem admitted_nop (l : Life) : admitted l 0x00 = true := by cases l <;> rfl
theorem admitted_reset (l : Life) : admitted l 0x04 = true := by cases l <;> rfl
theorem admitted_readStatus (l : Life) : admitted l 0x06 = true := by cases l <;> rfl

/-- An admitted command whose rule does not fault. -/
theorem runCommand_ok (h : admitted s.life op = true) (hb : body s = .ok t) :
    runCommand op body s = .next (bumpPc t) := by
  unfold runCommand
  rw [if_pos h, hb]

/-- An admitted command whose rule faults. -/
theorem runCommand_error (h : admitted s.life op = true) (hb : body s = .error c) :
    runCommand op body s = .next (takeFault c (faultInfoOf c op) s) := by
  unfold runCommand
  rw [if_pos h, hb]

/-- A command refused silently. -/
theorem runCommand_refused (h : admitted s.life op = false) (hf : s.life = .faulted) :
    runCommand op body s = .next (bumpPc s) := by
  unfold runCommand
  rw [if_neg (by rw [h]; exact Bool.false_ne_true), if_pos hf]

/-- A command that the lifecycle does not admit. -/
theorem runCommand_notAdmitted (h : admitted s.life op = false) (hf : s.life ≠ .faulted) :
    runCommand op body s = .next (takeFault .cmdState (op.zeroExtend 32) s) := by
  unfold runCommand
  rw [if_neg (by rw [h]; exact Bool.false_ne_true), if_neg hf]
  rfl

/-- Everything that the acceptance of a command can do. -/
theorem runCommand_cases (h : runCommand op body s = .next t) :
    (admitted s.life op = true ∧ ∃ u, body s = .ok u ∧ t = bumpPc u) ∨
    (admitted s.life op = true ∧ ∃ c, body s = .error c ∧
      t = takeFault c (faultInfoOf c op) s) ∨
    (admitted s.life op = false ∧ s.life = .faulted ∧ t = bumpPc s) ∨
    (admitted s.life op = false ∧ s.life ≠ .faulted ∧
      t = takeFault .cmdState (op.zeroExtend 32) s) := by
  cases ha : admitted s.life op
  · by_cases hf : s.life = .faulted
    · rw [runCommand_refused ha hf, Host.Outcome.next.injEq] at h
      exact .inr (.inr (.inl ⟨rfl, hf, h.symm⟩))
    · rw [runCommand_notAdmitted ha hf, Host.Outcome.next.injEq] at h
      exact .inr (.inr (.inr ⟨rfl, hf, h.symm⟩))
  · cases hb : body s with
    | ok u =>
      rw [runCommand_ok ha hb, Host.Outcome.next.injEq] at h
      exact .inl ⟨rfl, u, rfl, h.symm⟩
    | error c =>
      rw [runCommand_error ha hb, Host.Outcome.next.injEq] at h
      exact .inr (.inl ⟨rfl, c, rfl, h.symm⟩)

/-- Everything that the end of a micro-op can do. -/
theorem runMicroOp_cases {r : Except FaultCode State} (h : runMicroOp r s = .next t) :
    r = .ok t ∨ (∃ c, r = .error c ∧ s.life = .faulted ∧ t = s) ∨
      ∃ c, r = .error c ∧ s.life ≠ .faulted ∧ t = takeFault c (faultInfoOf c s.args.op) s := by
  cases r with
  | ok u =>
    have : u = t := by simpa [runMicroOp] using h
    exact .inl (by rw [this])
  | error c =>
    unfold runMicroOp at h
    dsimp only at h
    split at h
    · next hf => exact .inr (.inl ⟨c, rfl, hf, (Host.Outcome.next.inj h).symm⟩)
    · next hf => exact .inr (.inr ⟨c, rfl, hf, (Host.Outcome.next.inj h).symm⟩)

/-! The ten host commands, as commands under acceptance. -/

theorem exec_nop (s : State) : exec .nop s = runCommand 0x00 .ok s := rfl
theorem exec_sample (p : F32) (s : State) :
    exec (.sample p) s = runCommand 0x01 (sampleBody p) s := rfl
theorem exec_chunkEnd (s : State) :
    exec .chunkEnd s = runCommand 0x02 (fun t => .ok (chunkEndBody t)) s := rfl
theorem exec_flush (s : State) : exec .flush s = runCommand 0x03 flushBody s := rfl
theorem exec_reset (s : State) :
    exec .reset s = runCommand 0x04 (resetBody (nextRecord s)) (takeRecord s) := rfl
theorem exec_readResult (s : State) : exec .readResult s =
    runCommand 0x05 (fun t => .ok (respond (.result (beamGetResult t.dec)) t)) s := rfl
theorem exec_readStatus (s : State) : exec .readStatus s =
    runCommand 0x06 (fun t => .ok (respond (.status (statusWords t)) t)) s := rfl
theorem exec_injectEnv (p : F32) (s : State) :
    exec (.injectEnv p) s = runCommand 0x07 (injectEnvBody p) s := rfl
theorem exec_injectTransition (f : Bool) (p : F32) (s : State) :
    exec (.injectTransition f p) s = runCommand 0x08 (injectTransitionBody f p) s := rfl
theorem exec_setTargetFreq (p : F32) (s : State) :
    exec (.setTargetFreq p) s = runCommand 0x09 (setTargetFreqBody p) s := rfl

/-- An id of R303 names no host command. -/
theorem decodeMicroOp_notHost {id : BitVec 8} {i : Instr} (h : decodeMicroOp id = .ok i) :
    ¬ IsHostCommand i := by
  unfold decodeMicroOp at h
  split at h <;> cases h <;> decide

/-- Everything that a step with a next state can do: wait, refuse or fault an illegal word, or run an
instruction on the state with the consumed input taken off the port and the turn list. -/
theorem step_cases (h : step s = .next t) :
    ∃ (port : List Byte) (turns : List Turn),
      t = { s with turns := turns } ∨
      (∃ op, t = illegalCommand op { s with port := port, turns := turns }) ∨
      ∃ i, exec i { s with port := port, turns := turns } = .next t := by
  have hc : ∀ u : State, (∃ ts, u = { s with turns := ts }) → commandStep u = .next t →
      ∃ (port : List Byte) (turns : List Turn),
        t = { s with turns := turns } ∨
        (∃ op, t = illegalCommand op { s with port := port, turns := turns }) ∨
        ∃ i, exec i { s with port := port, turns := turns } = .next t := by
    rintro u ⟨ts, rfl⟩ hu
    unfold commandStep at hu
    split at hu
    · exact ⟨s.port, ts, .inl (by simpa using hu.symm)⟩
    · next w rest _ =>
      refine ⟨rest, ts, .inr ?_⟩
      split at hu
      · next i _ => exact .inr ⟨i, hu⟩
      · exact .inl ⟨_, by simpa using hu.symm⟩
  unfold step at h
  split at h
  · next ht => exact hc s ⟨[], by rw [← ht]⟩ h
  · next ts _ => exact hc _ ⟨ts, rfl⟩ h
  · next id ts _ =>
    split at h
    · next i _ => exact ⟨s.port, ts, .inr (.inr ⟨i, h⟩)⟩
    · cases h

end Sys2Proof.Laws
end

