-- ==== Sys2Proof/Laws/Frames.lean ====
section
/-! SUPPORT. What each shared operation may change: one frame lemma per operation that updates the state,
said once, so that no later proof unfolds the operation to see what it leaves alone. Where an operation
can fault, its frame lemma is about the state it answers, and a second lemma names the fault. -/

namespace Sys2Proof.Laws

open Sys2Proof Sys2Proof.Machine

/-! ## Monitor -/

theorem monDequeue_frame (s : State) : monDequeue s =
    { s with mon := (monDequeue s).mon,
             link := { s.link with queue := (monDequeue s).link.queue } } := by
  unfold monDequeue
  split <;> rfl

theorem acceptAndSmooth_frame (s : State) (a b f : F64) : acceptAndSmooth s a b f =
    { s with mon := { s.mon with fsmooth := (acceptAndSmooth s a b f).mon.fsmooth,
                                 locked := (acceptAndSmooth s a b f).mon.locked },
             link := { s.link with freqSlot := (acceptAndSmooth s a b f).link.freqSlot } } := by
  unfold acceptAndSmooth
  split <;> rfl

theorem monTick_frame (s : State) : monTick s =
    { s with mon := { s.mon with fsmooth := (monTick s).mon.fsmooth,
                                 locked := (monTick s).mon.locked },
             link := { s.link with freqSlot := (monTick s).link.freqSlot } } := by
  unfold monTick
  dsimp only
  split
  · rfl
  · split
    · rfl
    · exact acceptAndSmooth_frame ..

theorem monEnqueue_frame (s : State) (c : List F64) : monEnqueue s c =
    { s with adv := { s.adv with chunkDropped := (monEnqueue s c).adv.chunkDropped },
             link := { s.link with queue := (monEnqueue s c).link.queue } } := by
  unfold monEnqueue
  split
  · rfl
  · split <;> rfl

theorem chargeTick_frame (s : State) : chargeTick s =
    { s with mon := { s.mon with sinceTick := (chargeTick s).mon.sinceTick } } := rfl

theorem drainQueue_frame (n : Nat) (s : State) : drainQueue n s =
    { s with mon := (drainQueue n s).mon,
             link := { s.link with queue := (drainQueue n s).link.queue } } := by
  induction n generalizing s with
  | zero => rfl
  | succ n ih =>
    unfold drainQueue
    rw [ih (monDequeue s), monDequeue_frame s]

theorem runTicks_frame (n : Nat) (s : State) : runTicks n s =
    { s with mon := { s.mon with fsmooth := (runTicks n s).mon.fsmooth,
                                 locked := (runTicks n s).mon.locked,
                                 sinceTick := (runTicks n s).mon.sinceTick },
             link := { s.link with freqSlot := (runTicks n s).link.freqSlot } } := by
  induction n generalizing s with
  | zero => rfl
  | succ n ih =>
    unfold runTicks
    rw [ih, monTick_frame, chargeTick_frame]

theorem referenceRun_frame (s : State) : referenceRun s =
    { s with mon := (referenceRun s).mon,
             link := { s.link with queue := (referenceRun s).link.queue,
                                   freqSlot := (referenceRun s).link.freqSlot } } := by
  unfold referenceRun
  dsimp only
  rw [runTicks_frame, drainQueue_frame]

theorem retuneByPoll_frame (s : State) : retuneByPoll s =
    { s with demod := (retuneByPoll s).demod,
             link := { s.link with freqSlot := none } } := by
  unfold retuneByPoll
  dsimp only
  split <;> rfl

/-! ## Thresholds and trigger -/

theorem histSuggest_frame (s : State) : (histSuggest s).1 =
    { s with adv := { s.adv with squelch := (histSuggest s).1.adv.squelch } } := by
  unfold histSuggest
  dsimp only
  split <;> rfl

theorem athUpdate_frame (s : State) (e : F64) : (athUpdate s e).1 =
    { s with thr := athLevels s.cfg.athDecay s.thr e,
             adv := { s.adv with squelch := (athUpdate s e).1.adv.squelch } } := by
  unfold athUpdate
  dsimp only
  split <;> rfl

theorem thresholdStage_frame (s : State) (e : F64) : thresholdStage s e =
    { s with thr := (thresholdStage s e).thr,
             adv := { s.adv with squelch := (thresholdStage s e).adv.squelch } } := by
  unfold thresholdStage
  split
  · dsimp only
    split
    · unfold setThresholds
      rw [histSuggest_frame]
    · rfl
  · dsimp only
    unfold setThresholds
    rw [athUpdate_frame]

theorem trigStep_ok {c : Cfg} {t u : Trigger} {e h l : F64} {ev : Option Transition}
    (hk : trigStep c t e h l = .ok (u, ev)) :
    t.total ≠ BitVec.allOnes 64 ∧
      u = { (debounceStep c t (schmittRaw t e h l)).1 with total := t.total + 1 } ∧
      ev = (debounceStep c t (schmittRaw t e h l)).2 := by
  have ht : (debounceStep c t (schmittRaw t e h l)).1.total = t.total := by
    unfold debounceStep
    split_ifs <;> rfl
  unfold trigStep at hk
  dsimp only at hk
  rw [ht] at hk
  split at hk
  · cases hk
  · next hn =>
    simp only [Except.ok.injEq, Prod.mk.injEq] at hk
    exact ⟨hn, hk.1.symm, hk.2.symm⟩

theorem trigStep_error {c : Cfg} {t : Trigger} {e h l : F64} {x : FaultCode}
    (hk : trigStep c t e h l = .error x) :
    x = .counterOverflow ∧ t.total = BitVec.allOnes 64 := by
  have ht : (debounceStep c t (schmittRaw t e h l)).1.total = t.total := by
    unfold debounceStep
    split_ifs <;> rfl
  unfold trigStep at hk
  dsimp only at hk
  rw [ht] at hk
  split at hk
  · next hn => exact ⟨by cases hk; rfl, hn⟩
  · cases hk

/-! ## Symbol buffer and beam -/

theorem unitFloor_frame (s : State) : unitFloor s =
    { s with sym := { s.sym with unitTimeMs := (unitFloor s).sym.unitTimeMs },
             adv := { s.adv with unitReset := (unitFloor s).adv.unitReset } } := by
  unfold unitFloor
  split <;> rfl

theorem wpmUpdate_frame (s : State) (d : F64) : wpmUpdate s d =
    { s with sym := { s.sym with unitTimeMs := (wpmUpdate s d).sym.unitTimeMs,
                                 stats := statsPush s.cfg s.sym.stats d },
             adv := { s.adv with unitReset := (wpmUpdate s d).adv.unitReset } } := by
  unfold wpmUpdate
  dsimp only
  rw [unitFloor_frame]

theorem pushPulse_ok {s t : State} {v : F64} (h : pushPulse s v = .ok t) :
    t = { s with sym := { s.sym with pulseBuf := s.sym.pulseBuf ++ [v] } } := by
  unfold pushPulse at h
  split at h
  · split at h
    · cases h
    · simpa using h.symm
  · simpa using h.symm

theorem pushPulse_unbounded {s : State} (v : F64) (h : s.params.pulseBufCapacity = none) :
    pushPulse s v = .ok { s with sym := { s.sym with pulseBuf := s.sym.pulseBuf ++ [v] } } := by
  unfold pushPulse
  rw [h]

theorem pushPulse_error {s : State} {v : F64} {x : FaultCode} (h : pushPulse s v = .error x) :
    x = .counterOverflow := by
  unfold pushPulse at h
  split at h
  · split at h
    · simpa using h.symm
    · cases h
  · cases h

theorem foldGlitch_frame (y : Symbols) : foldGlitch y =
    { y with pulseBuf := (foldGlitch y).pulseBuf, lastGapMs := (foldGlitch y).lastGapMs } := by
  unfold foldGlitch
  split
  · split <;> rfl
  · rfl

theorem settleMark_frame {s t : State} (h : settleMark s = .ok t) :
    t = { s with sym := { t.sym with pendingMarkMs := s.sym.pendingMarkMs },
                 adv := { s.adv with unitReset := t.adv.unitReset } } := by
  unfold settleMark at h
  split at h
  · split at h
    · dsimp only at h
      rw [pushPulse_ok h, wpmUpdate_frame]
    · simp only [Except.ok.injEq] at h
      rw [← h, foldGlitch_frame]
  · simp only [Except.ok.injEq] at h
    rw [← h]

theorem settleMark_error {s : State} {x : FaultCode} (h : settleMark s = .error x) :
    x = .counterOverflow := by
  unfold settleMark at h
  split at h
  · split at h
    · exact pushPulse_error h
    · cases h
  · cases h

theorem beamStep_frame (s : State) (sig : List F64) : beamStep s sig =
    { s with dec := { s.dec with paths := (beamStep s sig).dec.paths },
             adv := { s.adv with decoderStarved := (beamStep s sig).adv.decoderStarved } } := by
  unfold beamStep
  dsimp only
  split <;> rfl

theorem decodeBuffer_frame (s : State) : decodeBuffer s =
    { s with sym := { s.sym with pulseBuf := [] },
             dec := { s.dec with paths := (decodeBuffer s).dec.paths },
             adv := { s.adv with decoderStarved := (decodeBuffer s).adv.decoderStarved } } := by
  unfold decodeBuffer
  split
  · next h => rw [← h]
  · dsimp only
    rw [beamStep_frame]

theorem settleGap_frame {s t : State} (h : settleGap s = .ok t) :
    t = { s with sym := { s.sym with pulseBuf := t.sym.pulseBuf },
                 dec := { s.dec with paths := t.dec.paths },
                 adv := { s.adv with decoderStarved := t.adv.decoderStarved } } := by
  unfold settleGap at h
  split at h
  · dsimp only at h
    rw [decodeBuffer_frame] at h
    split at h
    · simp only [Except.ok.injEq] at h
      rw [← h, beamInjectSpace]
    · simp only [Except.ok.injEq] at h
      rw [← h]
  · split at h
    · rw [pushPulse_ok h]
    · simp only [Except.ok.injEq] at h
      rw [← h]

theorem settleGap_error {s : State} {x : FaultCode} (h : settleGap s = .error x) :
    x = .counterOverflow := by
  unfold settleGap at h
  split at h
  · dsimp only at h
    split at h <;> cases h
  · split at h
    · exact pushPulse_error h
    · cases h

theorem symMarkEnd_frame {s t : State} {d : F64} (h : symMarkEnd s d = .ok t) :
    t = { s with sym := t.sym,
                 dec := { s.dec with paths := t.dec.paths },
                 adv := { s.adv with unitReset := t.adv.unitReset,
                                     decoderStarved := t.adv.decoderStarved } } := by
  unfold symMarkEnd at h
  split at h
  · simp only [Except.ok.injEq] at h
    rw [← h]
  · split at h
    · cases h
    · next s1 h1 =>
      split at h
      · cases h
      · next s2 h2 =>
        simp only [Except.ok.injEq] at h
        rw [← h, stageMark, settleGap_frame h2, settleMark_frame h1]

theorem symMarkEnd_error {s : State} {d : F64} {x : FaultCode} (h : symMarkEnd s d = .error x) :
    x = .counterOverflow := by
  unfold symMarkEnd at h
  split at h
  · cases h
  · split at h
    · next h1 => cases h; exact settleMark_error h1
    · split at h
      · next h2 => cases h; exact settleGap_error h2
      · cases h

theorem symFlush_frame {s t : State} (h : symFlush s = .ok t) :
    t = { s with sym := t.sym,
                 dec := { s.dec with paths := t.dec.paths },
                 adv := { s.adv with unitReset := t.adv.unitReset,
                                     decoderStarved := t.adv.decoderStarved } } := by
  unfold symFlush at h
  split at h
  · split at h
    · cases h
    · next s1 h1 =>
      simp only [Except.ok.injEq] at h
      rw [← h, decodeBuffer_frame, settleMark_frame h1]
  · simp only [Except.ok.injEq] at h
    rw [← h]

theorem symFlush_error {s : State} {x : FaultCode} (h : symFlush s = .error x) :
    x = .counterOverflow := by
  unfold symFlush at h
  split at h
  · split at h
    · next h1 => cases h; exact settleMark_error h1
    · cases h
  · cases h

/-! ## Stages and commands -/

theorem emitText_frame (d : Decoder) : emitText d =
    { d with out := (emitText d).out, lastEmitted := (emitText d).lastEmitted } := by
  unfold emitText
  dsimp only
  split
  · rfl
  · rfl

theorem symbolStage_frame {s t : State} {ev : Transition} (h : symbolStage s ev = .ok t) :
    t = { s with sym := t.sym, dec := { t.dec with lm := s.dec.lm },
                 adv := { s.adv with unitReset := t.adv.unitReset,
                                     decoderStarved := t.adv.decoderStarved } } := by
  unfold symbolStage at h
  split at h
  · split at h
    · cases h
    · next s1 h1 =>
      simp only [Except.ok.injEq] at h
      rw [← h, emit, emitText_frame, symMarkEnd_frame h1]
  · simp only [Except.ok.injEq] at h
    rw [← h, emit, emitText_frame, symGapEnd]

theorem symbolStage_error {s : State} {ev : Transition} {x : FaultCode}
    (h : symbolStage s ev = .error x) : x = .counterOverflow := by
  unfold symbolStage at h
  split at h
  · split at h
    · next h1 => cases h; exact symMarkEnd_error h1
    · cases h
  · cases h

theorem envStage_frame {s t : State} {e : F64} (h : envStage s e = .ok t) :
    t = { s with thr := (thresholdStage s e).thr, trig := t.trig, sym := t.sym,
                 dec := { t.dec with lm := s.dec.lm },
                 adv := { t.adv with chunkDropped := s.adv.chunkDropped } } := by
  unfold envStage at h
  dsimp only at h
  rw [thresholdStage_frame] at h
  split at h
  · cases h
  · simp only [Except.ok.injEq] at h
    rw [← h]
  · rw [symbolStage_frame h]

theorem envStage_error {s : State} {e : F64} {x : FaultCode} (h : envStage s e = .error x) :
    x = .counterOverflow := by
  unfold envStage at h
  dsimp only at h
  split at h
  · next h1 => cases h; exact (trigStep_error h1).1
  · cases h
  · exact symbolStage_error h

theorem pushSample_ok {s t : State} {v : F64} (h : pushSample s v = .ok t) :
    t = { s with link := { s.link with chunkAcc :=
      if s.cfg.monitorEnabled then s.link.chunkAcc ++ [v] else s.link.chunkAcc } } := by
  unfold pushSample at h
  split at h
  · next hm =>
    rw [if_pos hm]
    split at h
    · split at h
      · cases h
      · simpa using h.symm
    · simpa using h.symm
  · next hm =>
    rw [if_neg hm]
    simpa using h.symm

theorem pushSample_error {s : State} {v : F64} {x : FaultCode} (h : pushSample s v = .error x) :
    x = .counterOverflow := by
  unfold pushSample at h
  split at h
  · split at h
    · split at h
      · simpa using h.symm
      · cases h
    · cases h
  · cases h

end Sys2Proof.Laws
end

