-- ==== Sys2Proof/Laws/Bodies.lean ====
section
/-! SUPPORT. What the rule of each host command may change, and with which code it can fault: one frame
lemma and one fault lemma per command. -/

namespace Sys2Proof.Laws

open Sys2Proof Sys2Proof.Machine

variable {s t : State} {p : F32} {x : FaultCode}

theorem sampleBody_frame (h : sampleBody p s = .ok t) :
    t = { s with thr := t.thr, trig := t.trig, sym := t.sym, dec := { t.dec with lm := s.dec.lm },
                 adv := { t.adv with chunkDropped := s.adv.chunkDropped }, demod := t.demod,
                 link := { s.link with chunkAcc := t.link.chunkAcc } } := by
  unfold sampleBody at h
  split at h
  · cases h
  · split at h
    · cases h
    · next s1 h1 =>
      dsimp only at h
      rw [envStage_frame h, pushSample_ok h1]

theorem sampleBody_error (h : sampleBody p s = .error x) :
    x = .inputRange ∨ x = .counterOverflow := by
  unfold sampleBody at h
  split at h
  · cases h; exact .inl rfl
  · split at h
    · next h1 => cases h; exact .inr (pushSample_error h1)
    · exact .inr (envStage_error h)

theorem injectEnvBody_frame (h : injectEnvBody p s = .ok t) :
    t = { s with thr := t.thr, trig := t.trig, sym := t.sym, dec := { t.dec with lm := s.dec.lm },
                 adv := { t.adv with chunkDropped := s.adv.chunkDropped } } := by
  unfold injectEnvBody at h
  split at h
  · cases h
  · rw [envStage_frame h]

theorem injectEnvBody_error (h : injectEnvBody p s = .error x) :
    x = .inputRange ∨ x = .counterOverflow := by
  unfold injectEnvBody at h
  split at h
  · cases h; exact .inl rfl
  · exact .inr (envStage_error h)

theorem injectTransitionBody_frame {f : Bool} (h : injectTransitionBody f p s = .ok t) :
    t = { s with sym := t.sym, dec := { t.dec with lm := s.dec.lm },
                 adv := { s.adv with unitReset := t.adv.unitReset,
                                     decoderStarved := t.adv.decoderStarved } } := by
  unfold injectTransitionBody at h
  split at h
  · cases h
  · exact symbolStage_frame h

theorem injectTransitionBody_error {f : Bool} (h : injectTransitionBody f p s = .error x) :
    x = .inputRange ∨ x = .counterOverflow := by
  unfold injectTransitionBody at h
  split at h
  · cases h; exact .inl rfl
  · exact .inr (symbolStage_error h)

theorem setTargetFreqBody_frame (h : setTargetFreqBody p s = .ok t) :
    t = { s with demod := sdrRetune s.cfg s.demod (payload p) } := by
  unfold setTargetFreqBody at h
  split at h
  · cases h
  · simpa using h.symm

theorem setTargetFreqBody_error (h : setTargetFreqBody p s = .error x) : x = .inputRange := by
  unfold setTargetFreqBody at h
  split at h <;> cases h
  rfl

theorem chunkEndBody_frame (s : State) : chunkEndBody s =
    { s with demod := (chunkEndBody s).demod, mon := (chunkEndBody s).mon,
             link := { (chunkEndBody s).link with cancelled := s.link.cancelled },
             adv := { s.adv with chunkDropped := (chunkEndBody s).adv.chunkDropped } } := by
  unfold chunkEndBody
  split
  · dsimp only
    rw [retuneByPoll_frame]
    split
    · rw [referenceRun_frame, monEnqueue_frame]
    · rw [monEnqueue_frame]
  · rfl

theorem flushBody_frame (h : flushBody s = .ok t) :
    t = { s with sym := t.sym, dec := { t.dec with lm := s.dec.lm },
                 adv := { s.adv with unitReset := t.adv.unitReset,
                                     decoderStarved := t.adv.decoderStarved },
                 link := { queue := [], chunkAcc := [], freqSlot := none, cancelled := true },
                 life := .flushed, port := s.port.take (s.port.length / 8 * 8) } := by
  unfold flushBody at h
  split at h
  · cases h
  · next s1 h1 =>
    simp only [Except.ok.injEq] at h
    rw [← h, dropPartialWord, emit, emitText_frame, symFlush_frame h1]

theorem flushBody_error (h : flushBody s = .error x) : x = .counterOverflow := by
  unfold flushBody at h
  split at h
  · next h1 => cases h; exact symFlush_error h1
  · cases h

theorem validate_error {r : CfgRecord} (h : validate r = .error x) :
    x = .cfgFilterOrder ∨ x = .cfgSampleRate ∨ x = .cfgParam ∨ x = .cfgLmInvalid := by
  unfold validate lmLoad at h
  split_ifs at h
  · cases h; exact .inl rfl
  · cases h; exact .inr (.inl rfl)
  · cases h; exact .inr (.inr (.inl rfl))
  · split at h
    · split at h
      · cases h
      · cases h; exact .inr (.inr (.inr rfl))
    · cases h; exact .inr (.inr (.inr rfl))

theorem resetBody_ok {r : CfgRecord} (h : resetBody r s = .ok t) :
    ∃ m, validate r = .ok m ∧ t = dropPartialWord (construct r.registers m s) := by
  unfold resetBody at h
  split at h
  · cases h
  · next m hm => exact ⟨m, hm, by simpa using h.symm⟩

theorem resetBody_error {r : CfgRecord} (h : resetBody r s = .error x) : validate r = .error x := by
  unfold resetBody at h
  split at h
  · next h1 => cases h; exact h1
  · cases h

end Sys2Proof.Laws
end

