-- ==== Sys2Proof/Laws/Constants.lean ====
section
/-! SUPPORT. Each constant that a rule prints as a decimal is the binary64 number nearest to that decimal
(spec/00_scope.md R7, R8, R9): the decimal is written here as a fraction, in units of 2^-1074, and
rounded once. -/

namespace Sys2Proof.Laws

-- One check at a time: each evaluation in the kernel otherwise takes a thread of its own.
set_option Elab.async false

theorem zero_nearest : F64.roundQ false 0 1 = F64.zero := by decide +kernel
theorem one_nearest : F64.roundQ false (2 ^ 1074) 1 = F64.one := by decide +kernel
theorem two_nearest : F64.roundQ false (2 * 2 ^ 1074) 1 = F64.two := by decide +kernel
theorem three_nearest : F64.roundQ false (3 * 2 ^ 1074) 1 = F64.three := by decide +kernel
theorem five_nearest : F64.roundQ false (5 * 2 ^ 1074) 1 = F64.five := by decide +kernel
theorem nine_nearest : F64.roundQ false (9 * 2 ^ 1074) 1 = F64.nine := by decide +kernel
theorem ten_nearest : F64.roundQ false (10 * 2 ^ 1074) 1 = F64.ten := by decide +kernel
theorem twelve_nearest : F64.roundQ false (12 * 2 ^ 1074) 1 = F64.twelve := by decide +kernel
theorem twenty_nearest : F64.roundQ false (20 * 2 ^ 1074) 1 = F64.twenty := by decide +kernel
theorem thirty_nearest : F64.roundQ false (30 * 2 ^ 1074) 1 = F64.thirty := by decide +kernel
theorem sixty_nearest : F64.roundQ false (60 * 2 ^ 1074) 1 = F64.sixty := by decide +kernel
theorem hundred_nearest : F64.roundQ false (100 * 2 ^ 1074) 1 = F64.hundred := by decide +kernel
theorem oneTwenty_nearest : F64.roundQ false (120 * 2 ^ 1074) 1 = F64.oneTwenty := by decide +kernel
theorem twoHundred_nearest : F64.roundQ false (200 * 2 ^ 1074) 1 = F64.twoHundred := by decide +kernel
theorem thousand_nearest : F64.roundQ false (1000 * 2 ^ 1074) 1 = F64.thousand := by decide +kernel
theorem twelveHundred_nearest : F64.roundQ false (1200 * 2 ^ 1074) 1 = F64.twelveHundred := by decide +kernel
theorem maxRate_nearest : F64.roundQ false (768000 * 2 ^ 1074) 1 = F64.maxRate := by decide +kernel
theorem half_nearest : F64.roundQ false (5 * 2 ^ 1074) 10 = F64.half := by decide +kernel
theorem quarter_nearest : F64.roundQ false (25 * 2 ^ 1074) 100 = F64.quarter := by decide +kernel
theorem threeQuarters_nearest : F64.roundQ false (75 * 2 ^ 1074) 100 = F64.threeQuarters := by decide +kernel
theorem oneAndHalf_nearest : F64.roundQ false (15 * 2 ^ 1074) 10 = F64.oneAndHalf := by decide +kernel
theorem twoAndHalf_nearest : F64.roundQ false (25 * 2 ^ 1074) 10 = F64.twoAndHalf := by decide +kernel
theorem twoPointTwo_nearest : F64.roundQ false (22 * 2 ^ 1074) 10 = F64.twoPointTwo := by decide +kernel
theorem tenth_nearest : F64.roundQ false (1 * 2 ^ 1074) 10 = F64.tenth := by decide +kernel
theorem fifth_nearest : F64.roundQ false (2 * 2 ^ 1074) 10 = F64.fifth := by decide +kernel
theorem twoFifths_nearest : F64.roundQ false (4 * 2 ^ 1074) 10 = F64.twoFifths := by decide +kernel
theorem twentieth_nearest : F64.roundQ false (5 * 2 ^ 1074) 100 = F64.twentieth := by decide +kernel
theorem p95_nearest : F64.roundQ false (95 * 2 ^ 1074) 100 = F64.p95 := by decide +kernel
theorem nyquistFrac_nearest : F64.roundQ false (499 * 2 ^ 1074) 1000 = F64.nyquistFrac := by decide +kernel
theorem decay9995_nearest : F64.roundQ false (9995 * 2 ^ 1074) 10000 = F64.decay9995 := by decide +kernel
theorem fiveThousandths_nearest : F64.roundQ false (5 * 2 ^ 1074) 1000 = F64.fiveThousandths := by decide +kernel
theorem thousandth_nearest : F64.roundQ false (1 * 2 ^ 1074) 1000 = F64.thousandth := by decide +kernel
theorem twoTenThousandths_nearest : F64.roundQ false (2 * 2 ^ 1074) 10000 = F64.twoTenThousandths := by decide +kernel
theorem millionth_nearest : F64.roundQ false (1 * 2 ^ 1074) 1000000 = F64.millionth := by decide +kernel
theorem billionth_nearest : F64.roundQ false (1 * 2 ^ 1074) 1000000000 = F64.billionth := by decide +kernel
theorem negOne_nearest : F64.roundQ true (1 * 2 ^ 1074) 1 = F64.negOne := by decide +kernel
theorem negFifty_nearest : F64.roundQ true (50 * 2 ^ 1074) 1 = F64.negFifty := by decide +kernel
theorem negThousand_nearest : F64.roundQ true (1000 * 2 ^ 1074) 1 = F64.negThousand := by decide +kernel
theorem lmBound_nearest :
    F64.roundQ true (13815510557964274 * 2 ^ 1074) 1000000000000000 = F64.lmBound := by decide +kernel

/-- `-PI64` and `TWO_PI` from `PI64` (R13). -/
theorem negPi_eq : F64.negPi = F64.pi.neg := by decide +kernel
theorem twoPi_eq : F64.twoPi = F64.two.mul F64.pi := by decide +kernel

end Sys2Proof.Laws
end

