-- ==== Sys2Proof/Laws/Rounding.lean ====
section
/-! SUPPORT. What `F64.roundQ` does: it keeps order with every representable number, so it is exact on
representable values. Later proofs about binary64 results cite `roundQ_mag_ge` and
`roundQ_mag_le` and do not unfold `roundQ`. -/

namespace Sys2Proof.Laws

/-- |x| in units of 2^-1074, as a function of the magnitude pattern. -/
def unitsOf (m : Nat) : Nat :=
  if m / 2 ^ 52 = 0 then m % 2 ^ 52 else (2 ^ 52 + m % 2 ^ 52) * 2 ^ (m / 2 ^ 52 - 1)

theorem units_eq_unitsOf (x : F64) : x.units = unitsOf x.mag := rfl

theorem unitsOf_zero : unitsOf 0 = 0 := rfl

/-- A pattern below 2^53 is its own number of units. -/
theorem unitsOf_small {m : Nat} (h : m < 2 ^ 53) : unitsOf m = m := by
  rcases Nat.lt_or_ge m (2 ^ 52) with h0 | h0
  · exact (if_pos (Nat.div_eq_of_lt h0)).trans (Nat.mod_eq_of_lt h0)
  · have he : m / 2 ^ 52 = 1 := by omega
    have hm : 2 ^ 52 + m % 2 ^ 52 = m := by omega
    refine (if_neg (by rw [he]; exact one_ne_zero)).trans ?_
    rw [hm, he, Nat.sub_self, pow_zero, mul_one]

/-- A pattern with exponent field `e + 1` is its significand shifted by `e`. -/
theorem unitsOf_shift {e q : Nat} (h1 : 2 ^ 52 ≤ q) (h2 : q < 2 ^ 53) :
    unitsOf (e * 2 ^ 52 + q) = q * 2 ^ e := by
  have hd : (e * 2 ^ 52 + q) / 2 ^ 52 = e + 1 := by omega
  have hm : 2 ^ 52 + (e * 2 ^ 52 + q) % 2 ^ 52 = q := by omega
  refine (if_neg (by rw [hd]; exact Nat.succ_ne_zero e)).trans ?_
  rw [hd, hm, Nat.add_sub_cancel]

/-- The next pattern holds a larger number. -/
theorem unitsOf_succ (m : Nat) : unitsOf m < unitsOf (m + 1) := by
  by_cases h : m + 1 < 2 ^ 53
  · rw [unitsOf_small h, unitsOf_small (by omega)]; omega
  · obtain ⟨e, q, h1, h2, rfl⟩ : ∃ e q, 2 ^ 52 ≤ q ∧ q < 2 ^ 53 ∧ m = e * 2 ^ 52 + q :=
      ⟨m / 2 ^ 52 - 1, m % 2 ^ 52 + 2 ^ 52, by omega, by omega, by omega⟩
    rw [unitsOf_shift h1 h2]
    by_cases hq : q + 1 < 2 ^ 53
    · rw [show e * 2 ^ 52 + q + 1 = e * 2 ^ 52 + (q + 1) by omega, unitsOf_shift (by omega) hq]
      exact Nat.mul_lt_mul_of_pos_right (by omega) (Nat.two_pow_pos e)
    · have hq' : q + 1 = 2 ^ 53 := by omega
      rw [show e * 2 ^ 52 + q + 1 = (e + 1) * 2 ^ 52 + 2 ^ 52 by omega,
        unitsOf_shift (le_refl _) (by norm_num), pow_succ 2 e, mul_comm (2 ^ e) 2, ← mul_assoc]
      exact Nat.mul_lt_mul_of_pos_right (by omega) (Nat.two_pow_pos e)

theorem unitsOf_strictMono : StrictMono unitsOf := strictMono_nat_of_lt_succ unitsOf_succ

/-- Larger pattern, larger number. -/
theorem unitsOf_lt_iff {a b : Nat} : unitsOf a < unitsOf b ↔ a < b := unitsOf_strictMono.lt_iff_lt

theorem unitsOf_le_iff {a b : Nat} : unitsOf a ≤ unitsOf b ↔ a ≤ b := unitsOf_strictMono.le_iff_le

/-- The significand and shift that `roundQ` splits off encode the truncated quotient. -/
theorem unitsOf_trunc {q0 sh q : Nat}
    (hsh : sh = if q0 = 0 then 0 else Nat.log2 q0 - 52) (hq : q = q0 / 2 ^ sh) :
    unitsOf (sh * 2 ^ 52 + q) = q * 2 ^ sh ∧ unitsOf (sh * 2 ^ 52 + q + 1) = (q + 1) * 2 ^ sh := by
  have hlt : q < 2 ^ 53 := by
    rw [hq]
    refine Nat.div_lt_of_lt_mul ?_
    by_cases h0 : q0 = 0
    · subst h0; positivity
    · rw [if_neg h0] at hsh
      calc q0 < 2 ^ (Nat.log2 q0 + 1) := Nat.lt_log2_self
        _ ≤ 2 ^ (sh + 53) := Nat.pow_le_pow_right (by norm_num) (by omega)
        _ = 2 ^ sh * 2 ^ 53 := pow_add ..
  have hge : 0 < sh → 2 ^ 52 ≤ q := by
    intro hpos
    by_cases h0 : q0 = 0
    · rw [if_pos h0] at hsh; omega
    · rw [if_neg h0] at hsh
      rw [hq, Nat.le_div_iff_mul_le (Nat.two_pow_pos sh), ← pow_add]
      calc 2 ^ (52 + sh) = 2 ^ Nat.log2 q0 := by congr 1; omega
        _ ≤ q0 := Nat.log2_self_le h0
  rcases Nat.eq_zero_or_pos sh with h | h
  · subst h
    simp only [zero_mul, zero_add, pow_zero, mul_one]
    refine ⟨unitsOf_small hlt, ?_⟩
    rcases Nat.lt_or_ge (q + 1) (2 ^ 53) with h | h
    · exact unitsOf_small h
    · have : q + 1 = 2 ^ 53 := by omega
      rw [this]; decide
  · have h52 := hge h
    refine ⟨unitsOf_shift h52 hlt, ?_⟩
    rcases Nat.lt_or_ge (q + 1) (2 ^ 53) with h' | h'
    · rw [show sh * 2 ^ 52 + q + 1 = sh * 2 ^ 52 + (q + 1) by omega]
      exact unitsOf_shift (by omega) h'
    · have hq' : q + 1 = 2 ^ 53 := by omega
      rw [show sh * 2 ^ 52 + q + 1 = (sh + 1) * 2 ^ 52 + 2 ^ 52 by omega,
        unitsOf_shift (le_refl _) (by norm_num), hq', pow_succ]
      ring

/-- The magnitude pattern that `roundQ` answers. -/
def roundMag (num den : Nat) : Nat :=
  let q0 := num / den
  let sh := if q0 = 0 then 0 else Nat.log2 q0 - 52
  let d := den * 2 ^ sh
  let q := num / d
  let r := num % d
  let up := if d < 2 * r ∨ (2 * r = d ∧ q % 2 = 1) then 1 else 0
  min (sh * 2 ^ 52 + q + up) F64.infMag

theorem roundQ_eq (neg : Bool) (num den : Nat) :
    F64.roundQ neg num den = F64.ofSignMag neg (roundMag num den) := by
  unfold F64.roundQ; rfl

theorem roundMag_le_infMag (num den : Nat) : roundMag num den ≤ F64.infMag := Nat.min_le_right ..

/-- Rounding does not pass below a representable number that the exact value is not below. -/
theorem roundMag_ge {num den m : Nat} (hd : 0 < den) (hm : m ≤ F64.infMag)
    (h : unitsOf m * den ≤ num) : m ≤ roundMag num den := by
  unfold roundMag
  extract_lets q0 sh d q r up
  have ht := unitsOf_trunc (q0 := q0) (sh := sh) (q := q0 / 2 ^ sh) rfl rfl
  have hq : q = q0 / 2 ^ sh := (Nat.div_div_eq_div_mul num den (2 ^ sh)).symm
  rw [← hq] at ht
  have hdpos : 0 < d := Nat.mul_pos hd (Nat.two_pow_pos sh)
  refine le_min ?_ hm
  by_contra hc
  have h1 : unitsOf (sh * 2 ^ 52 + q + 1) ≤ unitsOf m := unitsOf_le_iff.2 (by omega)
  rw [ht.2] at h1
  have h2 : num < (q + 1) * d := by
    have := Nat.lt_div_mul_add hdpos (a := num)
    calc num < num / d * d + d := this
      _ = (q + 1) * d := by ring
  have h3 : (q + 1) * d ≤ unitsOf m * den := by
    calc (q + 1) * d = (q + 1) * 2 ^ sh * den := by simp only [d]; ring
      _ ≤ unitsOf m * den := Nat.mul_le_mul_right _ h1
  omega

/-- Rounding does not pass above a representable number that the exact value is not above. -/
theorem roundMag_le {num den m : Nat} (hd : 0 < den) (h : num ≤ unitsOf m * den) :
    roundMag num den ≤ m := by
  unfold roundMag
  extract_lets q0 sh d q r up
  have ht := unitsOf_trunc (q0 := q0) (sh := sh) (q := q0 / 2 ^ sh) rfl rfl
  have hq : q = q0 / 2 ^ sh := (Nat.div_div_eq_div_mul num den (2 ^ sh)).symm
  rw [← hq] at ht
  have hdpos : 0 < d := Nat.mul_pos hd (Nat.two_pow_pos sh)
  have hdm : q * d + r = num := by
    have := Nat.div_add_mod num d
    calc q * d + r = d * q + r := by ring
      _ = num := this
  refine le_trans (Nat.min_le_left ..) ?_
  by_contra hc
  have hkey : unitsOf m ≤ q * 2 ^ sh → False := by
    intro hu
    have hnum : num ≤ q * d := by
      calc num ≤ unitsOf m * den := h
        _ ≤ q * 2 ^ sh * den := Nat.mul_le_mul_right _ hu
        _ = q * d := by simp only [d]; ring
    have hr : r = 0 := by omega
    have hup : up = 0 := by
      simp only [up]
      rw [if_neg]
      omega
    have hlt : unitsOf m < q * 2 ^ sh := by
      rw [← ht.1]; exact unitsOf_lt_iff.2 (by omega)
    have : unitsOf m * den < num := by
      calc unitsOf m * den < q * 2 ^ sh * den := Nat.mul_lt_mul_of_pos_right hlt hd
        _ = q * d := by simp only [d]; ring
        _ ≤ num := by omega
    omega
  have hup1 : up ≤ 1 := by simp only [up]; split <;> omega
  exact hkey (by rw [← ht.1]; exact unitsOf_le_iff.2 (by omega))

/-- A representable value rounds to itself. -/
theorem roundMag_exact {num den m : Nat} (hd : 0 < den) (hm : m ≤ F64.infMag)
    (h : num = unitsOf m * den) : roundMag num den = m :=
  le_antisymm (roundMag_le hd h.le) (roundMag_ge hd hm h.ge)

theorem roundMag_zero (den : Nat) (hd : 0 < den) : roundMag 0 den = 0 :=
  roundMag_exact hd (Nat.zero_le _) (by rw [unitsOf_zero, Nat.zero_mul])

end Sys2Proof.Laws
end

