-- ==== Sys2Proof/Laws/Order.lean ====
section
/-! SUPPORT. The classes and the order of binary64 numbers: the sign and magnitude of a built number,
the comparisons as integer comparisons of keys, rounding as an order-preserving map, and what `min`,
`max` and `clamp` answer on operands that are no NaN. -/

namespace Sys2Proof.Laws

theorem mag_lt (x : F64) : x.mag < 2 ^ 63 := Nat.mod_lt _ (by norm_num)

theorem ofSignMag_toNat (s : Bool) {m : Nat} (h : m < 2 ^ 63) :
    (F64.ofSignMag s m).bits.toNat = cond s (2 ^ 63 + m) m := by
  cases s <;> simp only [F64.ofSignMag, cond_true, cond_false, BitVec.toNat_ofNat] <;>
    exact Nat.mod_eq_of_lt (by omega)

theorem ofSignMag_mag (s : Bool) {m : Nat} (h : m < 2 ^ 63) : (F64.ofSignMag s m).mag = m := by
  unfold F64.mag
  rw [ofSignMag_toNat s h]
  cases s <;> simp only [cond_true, cond_false] <;> omega

theorem ofSignMag_sign (s : Bool) {m : Nat} (h : m < 2 ^ 63) : (F64.ofSignMag s m).sign = s := by
  unfold F64.sign
  rw [ofSignMag_toNat s h]
  cases s <;> simp only [cond_true, cond_false, decide_eq_true_eq, decide_eq_false_iff_not] <;> omega

/-- A number is its sign and its magnitude. -/
theorem ofSignMag_sign_mag (x : F64) : F64.ofSignMag x.sign x.mag = x := by
  have hx : x.bits.toNat < 2 ^ 64 := x.bits.isLt
  have h : (F64.ofSignMag x.sign x.mag).bits.toNat = x.bits.toNat := by
    rw [ofSignMag_toNat _ (mag_lt x)]
    unfold F64.sign F64.mag
    by_cases h : 2 ^ 63 ≤ x.bits.toNat
    · rw [decide_eq_true h, cond_true]; omega
    · rw [decide_eq_false h, cond_false]; omega
  cases x
  exact congrArg F64.mk (BitVec.eq_of_toNat_eq h)

/-- Equal signs and equal magnitudes make equal numbers. -/
theorem eq_of_sign_mag {x y : F64} (hs : x.sign = y.sign) (hm : x.mag = y.mag) : x = y := by
  rw [← ofSignMag_sign_mag x, ← ofSignMag_sign_mag y, hs, hm]

theorem infMag_lt : F64.infMag < 2 ^ 63 := by decide

/-! ## Classes -/

theorem isNaN_eq_false_iff {x : F64} : x.isNaN = false ↔ x.mag ≤ F64.infMag := by
  simp [F64.isNaN]

theorem isFinite_iff {x : F64} : x.isFinite = true ↔ x.mag < F64.infMag := by
  simp [F64.isFinite]

theorem isInf_eq_false_of_finite {x : F64} (h : x.isFinite = true) : x.isInf = false := by
  rw [isFinite_iff] at h
  simp only [F64.isInf, decide_eq_false_iff_not]; omega

theorem isNaN_eq_false_of_finite {x : F64} (h : x.isFinite = true) : x.isNaN = false := by
  rw [isFinite_iff] at h
  exact isNaN_eq_false_iff.2 h.le

/-- The NaN results of the operations are NaN. -/
theorem nan_isNaN (a b : F64) : (F64.nan a b).isNaN = true := by
  have hp : (Config.nanPayload a b).toNat < 2 ^ 51 := (Config.nanPayload a b).isLt
  refine decide_eq_true ?_
  unfold F64.nan F64.infMag
  rw [ofSignMag_mag _ (by omega)]
  omega

theorem ofSignMag_isNaN (s : Bool) {m : Nat} (h : m ≤ F64.infMag) :
    (F64.ofSignMag s m).isNaN = false := by
  rw [isNaN_eq_false_iff, ofSignMag_mag s (lt_of_le_of_lt h infMag_lt)]; exact h

theorem neg_mag (x : F64) : x.neg.mag = x.mag := ofSignMag_mag _ (mag_lt x)

theorem neg_sign (x : F64) : x.neg.sign = !x.sign := ofSignMag_sign _ (mag_lt x)

theorem abs_mag (x : F64) : x.abs.mag = x.mag := ofSignMag_mag _ (mag_lt x)

theorem abs_sign (x : F64) : x.abs.sign = false := ofSignMag_sign _ (mag_lt x)

theorem neg_toInt (x : F64) : x.neg.toInt = -x.toInt := by
  unfold F64.toInt
  rw [neg_sign, units_eq_unitsOf, neg_mag, ← units_eq_unitsOf]
  cases x.sign <;> simp

/-! ## Comparisons -/

theorem lt_iff {a b : F64} :
    F64.lt a b = true ↔ a.isNaN = false ∧ b.isNaN = false ∧ a.key < b.key := by
  simp [F64.lt, and_assoc]

theorem le_iff {a b : F64} :
    F64.le a b = true ↔ a.isNaN = false ∧ b.isNaN = false ∧ a.key ≤ b.key := by
  simp [F64.le, and_assoc]

theorem le_trans {a b c : F64} (h1 : F64.le a b = true) (h2 : F64.le b c = true) :
    F64.le a c = true := by
  rw [le_iff] at *
  exact ⟨h1.1, h2.2.1, h1.2.2.trans h2.2.2⟩

theorem le_of_lt {a b : F64} (h : F64.lt a b = true) : F64.le a b = true := by
  rw [lt_iff] at h
  exact le_iff.2 ⟨h.1, h.2.1, h.2.2.le⟩

theorem le_eq_false_of_lt {a b : F64} (h : F64.lt a b = true) : F64.le b a = false := by
  obtain ⟨ha, hb, hk⟩ := lt_iff.1 h
  unfold F64.le
  rw [ha, hb, decide_eq_false (by omega)]
  rfl

theorem le_self {a : F64} (h : a.isNaN = false) : F64.le a a = true := le_iff.2 ⟨h, h, le_refl _⟩

/-- On numbers that are no NaN, `a < b` fails exactly when `b <= a`. -/
theorem lt_eq_false_iff {a b : F64} (ha : a.isNaN = false) (hb : b.isNaN = false) :
    F64.lt a b = false ↔ F64.le b a = true := by
  rw [Bool.eq_false_iff, Ne, lt_iff, le_iff]
  simp [ha, hb]

/-- The comparisons never hold of a NaN. -/
theorem lt_nan_right {a b : F64} (h : b.isNaN = true) : F64.lt a b = false := by
  simp [F64.lt, h]

/-- The keys order the finite numbers as their values do. -/
theorem toInt_le_iff {a b : F64} : a.toInt ≤ b.toInt ↔ a.key ≤ b.key := by
  unfold F64.toInt F64.key
  rw [units_eq_unitsOf, units_eq_unitsOf]
  have hz : unitsOf 0 = 0 := rfl
  have h1 := @unitsOf_le_iff a.mag b.mag
  have h2 := @unitsOf_le_iff b.mag a.mag
  have h3 := @unitsOf_le_iff a.mag 0
  have h4 := @unitsOf_le_iff b.mag 0
  rw [hz] at h3 h4
  cases a.sign <;> cases b.sign <;> simp only [cond_true, cond_false] <;> omega

theorem toInt_lt_iff {a b : F64} : a.toInt < b.toInt ↔ a.key < b.key := by
  have := @toInt_le_iff b a
  omega

/-! ## Rounding a signed exact value -/

theorem roundQ_mag (s : Bool) (num den : Nat) : (F64.roundQ s num den).mag = roundMag num den := by
  rw [roundQ_eq]
  exact ofSignMag_mag _ (lt_of_le_of_lt (roundMag_le_infMag ..) infMag_lt)

theorem roundQ_sign (s : Bool) (num den : Nat) : (F64.roundQ s num den).sign = s := by
  rw [roundQ_eq]
  exact ofSignMag_sign _ (lt_of_le_of_lt (roundMag_le_infMag ..) infMag_lt)

theorem roundQ_isNaN (s : Bool) (num den : Nat) : (F64.roundQ s num den).isNaN = false :=
  isNaN_eq_false_iff.2 ((roundQ_mag s num den).le.trans (roundMag_le_infMag num den))

theorem roundInt_isNaN (n : Bool) (v : Int) : (F64.roundInt n v).isNaN = false := by
  unfold F64.roundInt
  split
  · exact ofSignMag_isNaN _ (Nat.zero_le _)
  · exact roundQ_isNaN ..

/-- The magnitude of a rounded integer. -/
theorem roundInt_mag (n : Bool) (v : Int) : (F64.roundInt n v).mag = roundMag v.natAbs 1 := by
  unfold F64.roundInt
  split
  · next h =>
    subst h
    rw [ofSignMag_mag _ (by norm_num), Int.natAbs_zero, roundMag_zero 1 one_pos]
  · exact roundQ_mag ..

theorem key_of_sign {x : F64} {s : Bool} (h : x.sign = s) :
    x.key = cond s (-(x.mag : Int)) (x.mag : Int) := by
  rw [← h]; rfl

theorem key_of_mag_zero {x : F64} (h : x.mag = 0) : x.key = 0 := by
  unfold F64.key
  rw [h]
  cases x.sign <;> rfl

theorem roundInt_sign {n : Bool} {v : Int} (h : v ≠ 0) :
    (F64.roundInt n v).sign = decide (v < 0) := by
  unfold F64.roundInt
  rw [if_neg h]
  exact roundQ_sign ..

/-- The key of a rounded integer. -/
theorem roundInt_key (n : Bool) (v : Int) :
    (F64.roundInt n v).key = cond (decide (v < 0)) (-(roundMag v.natAbs 1 : Int))
      (roundMag v.natAbs 1 : Int) := by
  have hm := roundInt_mag n v
  generalize roundMag v.natAbs 1 = r at hm ⊢
  by_cases h0 : v = 0
  · subst h0
    have h0 : (F64.roundInt n 0).mag = 0 := by
      rw [roundInt_mag, Int.natAbs_zero, roundMag_zero 1 one_pos]
    rw [key_of_mag_zero h0, ← hm, h0]
    rfl
  · rw [key_of_sign (roundInt_sign h0), hm]

/-- Rounding does not pass below a representable number that the exact value is not below. -/
theorem roundInt_ge {n : Bool} {v : Int} {x : F64} (hx : x.isNaN = false) (h : x.toInt ≤ v) :
    F64.le x (F64.roundInt n v) = true := by
  rw [le_iff]
  refine ⟨hx, roundInt_isNaN .., ?_⟩
  rw [roundInt_key, Bool.cond_decide]
  have hm := isNaN_eq_false_iff.1 hx
  unfold F64.toInt at h
  unfold F64.key
  rw [units_eq_unitsOf] at h
  cases hs : x.sign
  · rw [hs] at h
    simp only [cond_false] at h ⊢
    rw [if_neg (by omega)]
    have := roundMag_ge (num := v.natAbs) (den := 1) one_pos hm (by omega)
    omega
  · rw [hs] at h
    simp only [cond_true] at h ⊢
    split
    · have := roundMag_le (num := v.natAbs) (den := 1) (m := x.mag) one_pos (by omega)
      omega
    · omega

/-- Rounding does not pass above a representable number that the exact value is not above. -/
theorem roundInt_le {n : Bool} {v : Int} {x : F64} (hx : x.isNaN = false) (h : v ≤ x.toInt) :
    F64.le (F64.roundInt n v) x = true := by
  rw [le_iff]
  refine ⟨roundInt_isNaN .., hx, ?_⟩
  rw [roundInt_key, Bool.cond_decide]
  have hm := isNaN_eq_false_iff.1 hx
  unfold F64.toInt at h
  unfold F64.key
  rw [units_eq_unitsOf] at h
  cases hs : x.sign
  · rw [hs] at h
    simp only [cond_false] at h ⊢
    split
    · omega
    · have := roundMag_le (num := v.natAbs) (den := 1) (m := x.mag) one_pos (by omega)
      omega
  · rw [hs] at h
    simp only [cond_true] at h ⊢
    split
    · have := roundMag_ge (num := v.natAbs) (den := 1) one_pos hm (by omega)
      omega
    · have h0 : unitsOf x.mag = 0 := by omega
      have : v = 0 := by omega
      subst this
      have h2 : ¬ 0 < x.mag := fun hc => by
        have := unitsOf_lt_iff.2 hc
        rw [unitsOf_zero] at this; omega
      rw [Int.natAbs_zero, roundMag_zero 1 one_pos]; omega

/-- A finite non-zero number is the rounding of its own value. -/
theorem roundInt_toInt {n : Bool} {x : F64} (hx : x.isFinite = true) (h0 : x.toInt ≠ 0) :
    F64.roundInt n x.toInt = x := by
  have hm := isFinite_iff.1 hx
  have hu : x.toInt.natAbs = unitsOf x.mag := by
    unfold F64.toInt; rw [units_eq_unitsOf]; cases x.sign <;> simp
  refine eq_of_sign_mag ?_ ?_
  · unfold F64.roundInt
    rw [if_neg h0, roundQ_sign]
    unfold F64.toInt at h0 ⊢
    cases hs : x.sign <;> rw [hs] at h0 <;> simp only [cond_true, cond_false] at h0 ⊢
    · exact decide_eq_false (by omega)
    · exact decide_eq_true (by omega)
  · rw [roundInt_mag, hu]
    exact roundMag_exact one_pos hm.le (Nat.mul_one _).symm

/-! ## Sums -/

/-- The sum of finite numbers is the rounding of the exact sum. -/
theorem add_finite {a b : F64} (ha : a.isFinite = true) (hb : b.isFinite = true) :
    a.add b = F64.roundInt (a.sign && b.sign) (a.toInt + b.toInt) := by
  unfold F64.add
  rw [isNaN_eq_false_of_finite ha, isNaN_eq_false_of_finite hb, isInf_eq_false_of_finite ha,
    isInf_eq_false_of_finite hb]
  simp

theorem neg_isFinite (x : F64) : x.neg.isFinite = x.isFinite := by
  unfold F64.isFinite; rw [neg_mag]

/-- The difference of finite numbers is the rounding of the exact difference. -/
theorem sub_finite {a b : F64} (ha : a.isFinite = true) (hb : b.isFinite = true) :
    a.sub b = F64.roundInt (a.sign && !b.sign) (a.toInt - b.toInt) := by
  unfold F64.sub
  rw [add_finite ha (by rw [neg_isFinite]; exact hb), neg_sign, neg_toInt, Int.sub_eq_add_neg]

/-! ## min, max, clamp -/

theorem max_cases {a b : F64} (ha : a.isNaN = false) (hb : b.isNaN = false) :
    (a.max b = a ∧ F64.le b a = true) ∨ (a.max b = b ∧ F64.le a b = true) := by
  have hab := lt_eq_false_iff ha hb
  have hba := lt_eq_false_iff hb ha
  unfold F64.max
  rw [ha, hb]
  simp only [Bool.or_false, Bool.false_eq_true, if_false]
  cases h1 : a.lt b
  · cases h2 : b.lt a
    · simp only [Bool.false_eq_true, if_false]
      split
      · exact .inl ⟨rfl, hab.1 h1⟩
      · cases Config.maxFirst a b
        · exact .inr ⟨rfl, hba.1 h2⟩
        · exact .inl ⟨rfl, hab.1 h1⟩
    · exact .inl ⟨by simp, hab.1 h1⟩
  · exact .inr ⟨by simp, le_of_lt h1⟩

theorem min_cases {a b : F64} (ha : a.isNaN = false) (hb : b.isNaN = false) :
    (a.min b = a ∧ F64.le a b = true) ∨ (a.min b = b ∧ F64.le b a = true) := by
  have hab := lt_eq_false_iff ha hb
  have hba := lt_eq_false_iff hb ha
  unfold F64.min
  rw [ha, hb]
  simp only [Bool.or_false, Bool.false_eq_true, if_false]
  cases h1 : a.lt b
  · cases h2 : b.lt a
    · simp only [Bool.false_eq_true, if_false]
      split
      · exact .inl ⟨rfl, hba.1 h2⟩
      · cases Config.minFirst a b
        · exact .inr ⟨rfl, hab.1 h1⟩
        · exact .inl ⟨rfl, hba.1 h2⟩
    · exact .inr ⟨by simp, le_of_lt h2⟩
  · exact .inl ⟨by simp, le_of_lt h1⟩

end Sys2Proof.Laws
end

