-- ==== Sys2Proof/Laws/Overflow.lean ====
section
/-! SUPPORT. When the settling operations exceed a fixed pulse-buffer capacity (R206, R1208) and when they
do not: two lemmas per operation, so that each runs exactly where its overflow condition is false; and
what SETTLE_MARK reads. -/

namespace Sys2Proof.Laws

open Sys2Proof Sys2Proof.Machine

variable {s s' u : State}

theorem pushPulse_full (v : F64) (h : PulseBufFull s) : pushPulse s v = .error .counterOverflow := by
  obtain ⟨c, hc, hl⟩ := h
  unfold pushPulse
  rw [hc]
  exact if_pos (by omega)

theorem settleMark_overflow (h : MarkOverflows s) : settleMark s = .error .counterOverflow := by
  unfold settleMark
  rw [if_pos h.1, if_pos h.2.1]
  exact pushPulse_full _ (by rw [wpmUpdate_frame]; exact h.2.2)

theorem settleGap_overflow (h : GapOverflows s) : settleGap s = .error .counterOverflow := by
  obtain ⟨h1, h2, h3, h4⟩ := h
  unfold settleGap
  rw [if_neg (by rw [h1]; exact Bool.false_ne_true),
    if_pos (by rw [h2]; simpa using Nat.one_le_iff_ne_zero.2 (by simpa using h3))]
  exact pushPulse_full _ h4

theorem symMarkEnd_overflow (d : F64) (h : MarkEndOverflows s) :
    symMarkEnd s d = .error .counterOverflow := by
  have hs : ¬ stitches s = true := by
    unfold stitches
    rw [Bool.and_eq_true]
    exact h.1
  unfold symMarkEnd
  rw [if_neg hs]
  rcases h.2 with h2 | ⟨u, h2, h3⟩
  · rw [settleMark_overflow h2]
  · rw [h2]
    dsimp only
    rw [settleGap_overflow h3]

/-! Where there is room, the operations run. -/

theorem pushPulse_room (v : F64) (h : ¬ PulseBufFull s) :
    pushPulse s v = .ok { s with sym := { s.sym with pulseBuf := s.sym.pulseBuf ++ [v] } } := by
  unfold pushPulse
  split
  · next c hc => exact if_neg fun hl => h ⟨c, hc, by omega⟩
  · rfl

theorem settleMark_room (h : ¬ MarkOverflows s) : ∃ u, settleMark s = .ok u := by
  unfold settleMark
  split
  · next h1 =>
    split
    · next h2 =>
      exact ⟨_, pushPulse_room _ (by rw [wpmUpdate_frame]; exact fun hf => h ⟨h1, h2, hf⟩)⟩
    · exact ⟨_, rfl⟩
  · exact ⟨_, rfl⟩

theorem settleGap_room (h : ¬ GapOverflows s) : ∃ u, settleGap s = .ok u := by
  unfold settleGap
  split
  · dsimp only
    split <;> exact ⟨_, rfl⟩
  · next h1 =>
    split
    · next h2 =>
      rw [Bool.and_eq_true, decide_eq_true_eq] at h2
      exact ⟨_, pushPulse_room _ fun hf => h ⟨by simpa using h1, h2.1,
        List.ne_nil_of_length_pos h2.2, hf⟩⟩
    · exact ⟨_, rfl⟩

theorem symMarkEnd_room (d : F64) (h : ¬ MarkEndOverflows s) : ∃ u, symMarkEnd s d = .ok u := by
  unfold symMarkEnd
  split
  · exact ⟨_, rfl⟩
  · next hs =>
    unfold stitches at hs
    rw [Bool.and_eq_true] at hs
    obtain ⟨u, hu⟩ := settleMark_room fun hm => h ⟨hs, .inl hm⟩
    obtain ⟨v, hv⟩ := settleGap_room fun hg => h ⟨hs, .inr ⟨u, hu, hg⟩⟩
    rw [hu]
    dsimp only
    rw [hv]
    exact ⟨_, rfl⟩

theorem symFlush_room (h : ¬ MarkOverflows s) : ∃ u, symFlush s = .ok u := by
  obtain ⟨u, hu⟩ := settleMark_room h
  unfold symFlush
  rw [hu]
  split <;> exact ⟨_, rfl⟩

/-- SETTLE_MARK reads the registers, the symbol buffer and the capacity, and nothing else. -/
theorem settleMark_congr (hc : s'.cfg = s.cfg) (hy : s'.sym = s.sym) (hp : s'.params = s.params)
    (h : settleMark s = .ok u) : ∃ u', settleMark s' = .ok u' ∧ u'.sym = u.sym := by
  have hw : ∀ d, (wpmUpdate s' d).sym = (wpmUpdate s d).sym := by
    intro d
    unfold wpmUpdate unitFloor
    dsimp only
    rw [hc, hy]
    split <;> rfl
  have hq : ∀ d, (wpmUpdate s' d).params = (wpmUpdate s d).params := by
    intro d
    rw [wpmUpdate_frame s', wpmUpdate_frame s]
    exact hp
  unfold settleMark at h ⊢
  rw [hc, hy]
  split at h
  · next h1 =>
    rw [if_pos h1]
    split at h
    · next h2 =>
      rw [if_pos h2]
      dsimp only at h ⊢
      unfold pushPulse at h ⊢
      rw [hw, hq]
      split at h
      · split at h
        · cases h
        · next h5 =>
          rw [if_neg h5]
          cases h
          exact ⟨_, rfl, rfl⟩
      · cases h
        exact ⟨_, rfl, rfl⟩
    · next h2 =>
      rw [if_neg h2]
      cases h
      exact ⟨_, rfl, rfl⟩
  · next h1 =>
    rw [if_neg h1]
    cases h
    exact ⟨_, rfl, hy⟩

/-- Whether SYM_MARK_END overflows depends on the same elements only. -/
theorem markEndOverflows_congr (hc : s'.cfg = s.cfg) (hy : s'.sym = s.sym)
    (hp : s'.params = s.params) (h : MarkEndOverflows s) : MarkEndOverflows s' := by
  obtain ⟨h1, h2⟩ := h
  refine ⟨by rw [hc, hy]; exact h1, ?_⟩
  rcases h2 with ⟨a, b, c, hcap, hl⟩ | ⟨u, hu, a, b, e, c, hcap, hl⟩
  · exact .inl ⟨by rw [hy]; exact a, by rw [hc, hy]; exact b, c, by rw [hp]; exact hcap,
      by rw [hy]; exact hl⟩
  · obtain ⟨u', hu', hs⟩ := settleMark_congr hc hy hp hu
    have fu := settleMark_frame hu
    have fu' := settleMark_frame hu'
    have e1 : u'.cfg = u.cfg := by rw [fu', fu]; exact hc
    have e2 : u'.params = u.params := by rw [fu', fu]; exact hp
    exact .inr ⟨u', hu', by rw [e1, hs]; exact a, by rw [hs]; exact b, by rw [hs]; exact e, c,
      by rw [e2]; exact hcap, by rw [hs]; exact hl⟩

/-- Without a fixed capacity no pulse buffer is full, and SYM_MARK_END never overflows (R206). -/
theorem not_pulseBufFull (h : s.params.pulseBufCapacity = none) : ¬ PulseBufFull s := by
  rintro ⟨c, hc, _⟩
  rw [h] at hc
  cases hc

theorem not_markEndOverflows (h : s.params.pulseBufCapacity = none) : ¬ MarkEndOverflows s := by
  rintro ⟨_, hm | ⟨u, hu, hg⟩⟩
  · exact not_pulseBufFull h hm.2.2
  · exact not_pulseBufFull (by rw [settleMark_frame hu]; exact h) hg.2.2.2

end Sys2Proof.Laws
end

