-- ==== Sys2Proof/Laws/PerInstr.lean ====
section
/-! SUPPORT. The family EncodesLegally: what each instruction is encoded as. Every instruction is well
formed, since its arguments hold exactly what a word can carry; a host command takes 8 bytes (R210), a
micro-op is the one byte of its id (R303). -/

namespace Sys2Proof.Laws

/-- The instruction is well formed, and its encoding has 8 bytes (a host command) or 1 (a micro-op). -/
def EncodesLegally.Statement (i : Instr) : Prop :=
  i.wf = true ∧ (encodeBytes i).length = (match i.microOpId with | none => 8 | some _ => 1)

theorem EncodesLegally.nop : EncodesLegally.Statement .nop := ⟨rfl, rfl⟩
theorem EncodesLegally.sample (p : F32) :
    EncodesLegally.Statement (.sample p) :=
  ⟨by simp [Instr.wf, Instr.fields, CmdFields.check, opUsesFlag, opUsesPayload], rfl⟩
theorem EncodesLegally.chunkEnd : EncodesLegally.Statement .chunkEnd := ⟨rfl, rfl⟩
theorem EncodesLegally.flush : EncodesLegally.Statement .flush := ⟨rfl, rfl⟩
theorem EncodesLegally.reset : EncodesLegally.Statement .reset := ⟨rfl, rfl⟩
theorem EncodesLegally.readResult : EncodesLegally.Statement .readResult := ⟨rfl, rfl⟩
theorem EncodesLegally.readStatus : EncodesLegally.Statement .readStatus := ⟨rfl, rfl⟩
theorem EncodesLegally.injectEnv (p : F32) :
    EncodesLegally.Statement (.injectEnv p) :=
  ⟨by simp [Instr.wf, Instr.fields, CmdFields.check, opUsesFlag, opUsesPayload], rfl⟩
theorem EncodesLegally.injectTransition (f : Bool) (p : F32) :
    EncodesLegally.Statement (.injectTransition f p) :=
  ⟨by simp [Instr.wf, Instr.fields, CmdFields.check, opUsesFlag, opUsesPayload], rfl⟩
theorem EncodesLegally.setTargetFreq (p : F32) :
    EncodesLegally.Statement (.setTargetFreq p) :=
  ⟨by simp [Instr.wf, Instr.fields, CmdFields.check, opUsesFlag, opUsesPayload], rfl⟩
theorem EncodesLegally.biquadStep : EncodesLegally.Statement .biquadStep := ⟨rfl, rfl⟩
theorem EncodesLegally.lpfCascadeStep : EncodesLegally.Statement .lpfCascadeStep := ⟨rfl, rfl⟩
theorem EncodesLegally.loGen : EncodesLegally.Statement .loGen := ⟨rfl, rfl⟩
theorem EncodesLegally.iqMix : EncodesLegally.Statement .iqMix := ⟨rfl, rfl⟩
theorem EncodesLegally.envelope : EncodesLegally.Statement .envelope := ⟨rfl, rfl⟩
theorem EncodesLegally.afcUpdate : EncodesLegally.Statement .afcUpdate := ⟨rfl, rfl⟩
theorem EncodesLegally.phaseAdvance : EncodesLegally.Statement .phaseAdvance := ⟨rfl, rfl⟩
theorem EncodesLegally.sdrRetune : EncodesLegally.Statement .sdrRetune := ⟨rfl, rfl⟩
theorem EncodesLegally.sdrStep : EncodesLegally.Statement .sdrStep := ⟨rfl, rfl⟩
theorem EncodesLegally.lpfDesign : EncodesLegally.Statement .lpfDesign := ⟨rfl, rfl⟩
theorem EncodesLegally.monEnqueue : EncodesLegally.Statement .monEnqueue := ⟨rfl, rfl⟩
theorem EncodesLegally.monDequeue : EncodesLegally.Statement .monDequeue := ⟨rfl, rfl⟩
theorem EncodesLegally.monTick : EncodesLegally.Statement .monTick := ⟨rfl, rfl⟩
theorem EncodesLegally.welchPsd : EncodesLegally.Statement .welchPsd := ⟨rfl, rfl⟩
theorem EncodesLegally.noiseFloor : EncodesLegally.Statement .noiseFloor := ⟨rfl, rfl⟩
theorem EncodesLegally.peakSearch : EncodesLegally.Statement .peakSearch := ⟨rfl, rfl⟩
theorem EncodesLegally.parabolicRefine : EncodesLegally.Statement .parabolicRefine := ⟨rfl, rfl⟩
theorem EncodesLegally.acceptAndSmooth : EncodesLegally.Statement .acceptAndSmooth := ⟨rfl, rfl⟩
theorem EncodesLegally.freqPoll : EncodesLegally.Statement .freqPoll := ⟨rfl, rfl⟩
theorem EncodesLegally.histPush : EncodesLegally.Statement .histPush := ⟨rfl, rfl⟩
theorem EncodesLegally.histSuggest : EncodesLegally.Statement .histSuggest := ⟨rfl, rfl⟩
theorem EncodesLegally.pctToHl : EncodesLegally.Statement .pctToHl := ⟨rfl, rfl⟩
theorem EncodesLegally.athUpdate : EncodesLegally.Statement .athUpdate := ⟨rfl, rfl⟩
theorem EncodesLegally.schmittRaw : EncodesLegally.Statement .schmittRaw := ⟨rfl, rfl⟩
theorem EncodesLegally.debounceStep : EncodesLegally.Statement .debounceStep := ⟨rfl, rfl⟩
theorem EncodesLegally.trigStep : EncodesLegally.Statement .trigStep := ⟨rfl, rfl⟩
theorem EncodesLegally.symGapEnd : EncodesLegally.Statement .symGapEnd := ⟨rfl, rfl⟩
theorem EncodesLegally.symMarkEnd : EncodesLegally.Statement .symMarkEnd := ⟨rfl, rfl⟩
theorem EncodesLegally.symFlush : EncodesLegally.Statement .symFlush := ⟨rfl, rfl⟩
theorem EncodesLegally.wpmUpdate : EncodesLegally.Statement .wpmUpdate := ⟨rfl, rfl⟩
theorem EncodesLegally.statsPush : EncodesLegally.Statement .statsPush := ⟨rfl, rfl⟩
theorem EncodesLegally.statsAnalyze : EncodesLegally.Statement .statsAnalyze := ⟨rfl, rfl⟩
theorem EncodesLegally.settleMark : EncodesLegally.Statement .settleMark := ⟨rfl, rfl⟩
theorem EncodesLegally.settleGap : EncodesLegally.Statement .settleGap := ⟨rfl, rfl⟩
theorem EncodesLegally.beamStep : EncodesLegally.Statement .beamStep := ⟨rfl, rfl⟩
theorem EncodesLegally.emissionScore : EncodesLegally.Statement .emissionScore := ⟨rfl, rfl⟩
theorem EncodesLegally.lmGet : EncodesLegally.Statement .lmGet := ⟨rfl, rfl⟩
theorem EncodesLegally.beamPrune : EncodesLegally.Statement .beamPrune := ⟨rfl, rfl⟩
theorem EncodesLegally.beamInjectSpace : EncodesLegally.Statement .beamInjectSpace := ⟨rfl, rfl⟩
theorem EncodesLegally.beamGetResult : EncodesLegally.Statement .beamGetResult := ⟨rfl, rfl⟩
theorem EncodesLegally.lmLoad : EncodesLegally.Statement .lmLoad := ⟨rfl, rfl⟩
theorem EncodesLegally.emitText : EncodesLegally.Statement .emitText := ⟨rfl, rfl⟩
theorem EncodesLegally.envStage : EncodesLegally.Statement .envStage := ⟨rfl, rfl⟩
theorem EncodesLegally.symbolStage : EncodesLegally.Statement .symbolStage := ⟨rfl, rfl⟩

end Sys2Proof.Laws
end

