-- ==== Sys2Proof/Laws/Rings.lean ====
section
/-! SUPPORT. The ring operations of R203: the form of a ring is kept by every write and held by an empty
ring, and a read answers as many elements as were written. -/

namespace Sys2Proof.Laws

open Sys2Proof Sys2Proof.Machine

/-- A write keeps the form. -/
theorem ringWrite_form {c : Nat} {r : Ring} (v : F64) (h : RingForm c r) :
    RingForm c (ringWrite c r v) := by
  refine ⟨?_, Nat.min_le_right _ _, ?_⟩
  · simpa [ringWrite] using h.1
  · rcases Nat.eq_zero_or_pos c with h0 | h0
    · exact .inr h0
    · exact .inl (Nat.mod_lt _ h0)

/-- Writing one value after another keeps the form. -/
theorem ringWrite_foldl_form {c : Nat} (vs : List F64) {r : Ring} (h : RingForm c r) :
    RingForm c (vs.foldl (ringWrite c) r) := by
  induction vs generalizing r with
  | nil => exact h
  | cons v vs ih => exact ih (ringWrite_form v h)

/-- The ring at reset has its form. -/
theorem empty_form (c : Nat) : RingForm c (Ring.empty c) := by
  refine ⟨by simp [Ring.empty], Nat.zero_le _, ?_⟩
  rcases Nat.eq_zero_or_pos c with h | h
  · exact .inr h
  · exact .inl h

/-- A chronological read answers the fill count's number of elements. -/
@[simp] theorem ringChrono_length (c : Nat) (r : Ring) : (ringChrono c r).length = r.fill := by
  simp [ringChrono]

/-- The saturating count is never below its operand, and stays at the limit (R1208). -/
theorem satInc_toNat (c : U64) : (satInc c).toNat = min (c.toNat + 1) (2 ^ 64 - 1) := by
  unfold satInc
  have h := c.isLt
  split
  · next hc => rw [hc]; decide
  · next hc =>
    have hn : c.toNat ≠ 2 ^ 64 - 1 := fun hk => hc (BitVec.eq_of_toNat_eq (by rw [hk]; decide))
    have h1 : (1 : U64).toNat = 1 := rfl
    rw [BitVec.toNat_add, h1]
    omega

end Sys2Proof.Laws
end

