-- ==== Sys2Proof/Laws/Schedule.lean ====
section
/-! SUPPORT. The REFERENCE run of the monitor (R421) in closed form: the drained queue, the ticks as an
iterate, and what a tick does not read; and everything that a step of an execution can be (R422). -/

namespace Sys2Proof.Laws

open Sys2Proof Sys2Proof.Machine

/-- Draining a queue moves all its samples, in order, into the ring and adds them to the tick account. -/
theorem drainQueue_eq (q : List (List F64)) : ∀ s : State, s.link.queue = q →
    s.mon.sinceTick.toNat + q.flatten.length < 2 ^ 64 →
    drainQueue q.length s =
      { s with
        mon := { s.mon with
          ring := q.flatten.foldl (ringWrite s.cfg.monRingLen) s.mon.ring
          sinceTick := BitVec.ofNat 64 (s.mon.sinceTick.toNat + q.flatten.length) }
        link := { s.link with queue := [] } } := by
  induction q with
  | nil =>
    intro s h1 _
    simp only [List.length_nil, drainQueue, List.flatten_nil, List.foldl_nil, Nat.add_zero,
      BitVec.ofNat_toNat, BitVec.setWidth_eq]
    rw [← h1]
  | cons c q ih =>
    intro s h1 h2
    simp only [List.flatten_cons, List.length_append] at h2
    have hm : monDequeue s =
        { s with mon := absorbChunk s.cfg s.mon c, link := { s.link with queue := q } } := by
      unfold monDequeue
      rw [h1]
    have ha : addSinceTick s.mon.sinceTick c.length =
        BitVec.ofNat 64 (s.mon.sinceTick.toNat + c.length) := if_pos (by omega)
    show drainQueue q.length (monDequeue s) = _
    rw [hm, ih _ rfl]
    · dsimp only [absorbChunk]
      rw [ha, BitVec.toNat_ofNat, Nat.mod_eq_of_lt (by omega)]
      simp only [List.flatten_cons, List.length_append, List.foldl_append, Nat.add_assoc]
    · dsimp only [absorbChunk]
      rw [ha, BitVec.toNat_ofNat, Nat.mod_eq_of_lt (by omega)]
      omega

/-- MON_TICK neither reads nor writes the tick account. -/
theorem monTick_sinceTick (s : State) (v : U64) :
    monTick { s with mon := { s.mon with sinceTick := v } } =
      { monTick s with mon := { (monTick s).mon with sinceTick := v } } := by
  unfold monTick
  dsimp only
  split
  · rfl
  · split
    · rfl
    · unfold acceptAndSmooth
      split <;> rfl

/-- MON_TICK neither reads nor writes the advisory counters, the queue, the accumulator and the
cancellation. -/
theorem monTick_handoff (s : State) (q : List (List F64)) (a : List F64) (c : Bool) (r : Advisory) :
    monTick { s with adv := r, link := { s.link with queue := q, chunkAcc := a, cancelled := c } } =
      { monTick s with
        adv := r, link := { (monTick s).link with queue := q, chunkAcc := a, cancelled := c } } := by
  unfold monTick
  dsimp only
  split
  · rfl
  · split
    · rfl
    · unfold acceptAndSmooth
      split <;> rfl

/-- The second loop: the account is charged `n` periods and MON_TICK runs `n` times. -/
theorem runTicks_eq (n : Nat) : ∀ s : State, n * s.cfg.tickSamples ≤ s.mon.sinceTick.toNat →
    runTicks n s = monTick^[n] { s with mon := { s.mon with
      sinceTick := BitVec.ofNat 64 (s.mon.sinceTick.toNat - n * s.cfg.tickSamples) } } := by
  induction n with
  | zero =>
    intro s _
    simp only [runTicks, Function.iterate_zero, id_eq, Nat.zero_mul, Nat.sub_zero,
      BitVec.ofNat_toNat, BitVec.setWidth_eq]
  | succ n ih =>
    intro s h
    have hl := s.mon.sinceTick.isLt
    rw [Nat.succ_mul] at h
    have hk : (s.mon.sinceTick - BitVec.ofNat 64 s.cfg.tickSamples).toNat =
        s.mon.sinceTick.toNat - s.cfg.tickSamples := by
      rw [BitVec.toNat_sub, BitVec.toNat_ofNat,
        Nat.mod_eq_of_lt (b := 2 ^ 64) (a := s.cfg.tickSamples) (by omega)]
      omega
    have hc : (monTick s).cfg = s.cfg := by rw [monTick_frame]
    rw [Function.iterate_succ_apply, monTick_sinceTick s]
    unfold runTicks chargeTick
    rw [monTick_sinceTick s, ih _ (by dsimp only; rw [hc, hk]; omega)]
    dsimp only
    rw [hc, hk, Nat.succ_mul,
      show s.mon.sinceTick.toNat - s.cfg.tickSamples - n * s.cfg.tickSamples =
        s.mon.sinceTick.toNat - (n * s.cfg.tickSamples + s.cfg.tickSamples) by omega]

/-- Everything that a step of an execution can be (R422): a host command on a whole word, a MON_DEQUEUE
of a queued chunk, or a MON_TICK, the last two where R421 enables them. -/
theorem scheduleStep_cases {k : ScheduleStep} {s t : State} (h : scheduleStep k s = some t) :
    (k = .command ∧ (takeWord s.port).isSome = true ∧ commandStep s = .next t) ∨
    (k = .dequeue ∧ monitorEnabled s = true ∧ s.link.queue ≠ [] ∧ t = monDequeue s) ∨
    (k = .tick ∧ monitorEnabled s = true ∧ t = monTick s) := by
  unfold scheduleStep at h
  split at h <;> split at h
  · next hw =>
    cases hc : commandStep s <;> rw [hc] at h <;> cases h
    exact .inl ⟨rfl, hw, rfl⟩
  · cases h
  · next hm =>
    rw [Bool.and_eq_true, Bool.not_eq_true', List.isEmpty_eq_false_iff] at hm
    exact .inr (.inl ⟨rfl, hm.1, hm.2, (Option.some.inj h).symm⟩)
  · cases h
  · next hm => exact .inr (.inr ⟨rfl, hm, (Option.some.inj h).symm⟩)
  · cases h

/-- Under REFERENCE the monitor has no step of its own (R421): it runs only inside CHUNK_END. -/
theorem scheduleStep_reference {k : ScheduleStep} {s t : State} (hr : s.params.schedule = .reference)
    (h : scheduleStep k s = some t) : k = .command := by
  have hm : monitorEnabled s = false := by
    unfold monitorEnabled
    rw [hr]
    rfl
  rcases scheduleStep_cases h with ⟨hk, _⟩ | ⟨_, he, _⟩ | ⟨_, he, _⟩
  · exact hk
  · rw [hm] at he
    cases he
  · rw [hm] at he
    cases he

end Sys2Proof.Laws
end

