-- ==== Sys2Proof/Tests/Slice0.lean ====
section
/-! SUPPORT. Small checks of the model, and the witnesses of the statements. Each expected value is taken
from spec/30_encoding.md or from the vectors of spec/95_test_vectors.md, named in the comment above the
theorem; a value printed there as a decimal is written as its binary64 encoding. -/

namespace Sys2Proof.Tests

open Sys2Proof Sys2Proof.Machine Sys2Proof.Laws

-- One check at a time: each evaluation in the kernel otherwise takes a thread of its own.
set_option Elab.async false

/-! ## Small states -/

/-- A binary64 number by its encoding. -/
def f (b : BitVec 64) : F64 := ⟨b⟩

/-- The record CFG_A of spec/95_test_vectors.md. -/
def recA : CfgRecord :=
  { fs := some (f 0x40E7700000000000), targetFreqHz := some (f 0x4085E00000000000), monitorEnabled := some false,
    minFreqHz := some F64.twoHundred, maxFreqHz := some F64.twelveHundred,
    requiredSnr := some F64.ten, alphaBase := some F64.tenth, alphaGain := some F64.twentieth,
    alphaMax := some F64.half, monQueueCapacity := some 4, afcEnabled := some true,
    athMinRange := some (f 0x3F847AE147AE147B), glitchThresholdMs := some F64.twenty,
    wpmUpdateAlpha := some F64.tenth, statsWindowSize := some 20, lm := some [] }

/-- The record of the monitor vectors MO1 to MO10: fs 1600, fft_size 16, overlap 8. -/
def recM : CfgRecord :=
  { recA with fs := some (f 0x4099000000000000), targetFreqHz := some (f 0x4079000000000000), monitorEnabled := some true,
              fftSize := 16, overlap := some 8, updateIntervalMs := (f 0x4039000000000000),
              maxFreqHz := some (f 0x4085E00000000000) }

/-- A RUNNING state with the registers of a record. -/
def running (r : CfgRecord) : State := { State.reset with life := .running, cfg := r.registers }

/-- RUNNING under CFG_A, and under the monitor's record. -/
def sA : State := running recA
def sM : State := running recM

/-- The state after an outcome; the power-on state where there is none. -/
def after (o : Host.Outcome State Fault Refusal) : State :=
  match o with
  | .next t => t
  | .fault _ => State.reset
  | .refused _ => State.reset

/-- Whether an outcome is a next state. -/
def isNext (o : Host.Outcome State Fault Refusal) : Bool :=
  match o with
  | .next _ => true
  | .fault _ => false
  | .refused _ => false

theorem next_after {o : Host.Outcome State Fault Refusal} (h : isNext o = true) :
    o = .next (after o) := by
  cases o with
  | next t => rfl
  | fault e => cases h
  | refused e => cases h

/-- An instruction on a state. -/
def run (i : Instr) (s : State) : State := after (exec i s)

/-- Word 0 of READ_STATUS (R1213). -/
def w0 (s : State) : Option U64 := (statusWords s).head?

/-! ## Well-formedness: each check refuses an ill-formed word (R304, R305) -/

theorem test_wf_reserved_opcode_low :
    CmdFields.check ⟨0x0A, 0, false, 0⟩ = some .reservedOpcode := by decide
theorem test_wf_reserved_opcode_high :
    CmdFields.check ⟨0x7F, 0, false, 0⟩ = some .reservedOpcode := by decide
theorem test_wf_micro_op_space :
    CmdFields.check ⟨0x80, 0, false, 0⟩ = some .microOpSpace := by decide
theorem test_wf_reserved_field :
    CmdFields.check ⟨0x01, 1, false, 0⟩ = some .reservedField := by decide
theorem test_wf_flag_not_used :
    CmdFields.check ⟨0x01, 0, true, 0⟩ = some .flagNotUsed := by decide
theorem test_wf_payload_not_used :
    CmdFields.check ⟨0x00, 0, false, 1⟩ = some .payloadNotUsed := by decide
theorem test_wf_accepts : CmdFields.check ⟨0x08, 0, true, 0x43340000⟩ = none := by decide

/-! ## Decoding: each constructor from a word written out from R302, R303 -/

theorem test_decode_nop :
    decodeTableWord 64 0x0000000000000000 = some .nop := by decide

theorem test_decode_sample :
    decodeTableWord 64 0x010000003F000000 = some (.sample 0x3F000000) := by decide

theorem test_decode_chunk_end :
    decodeTableWord 64 0x0200000000000000 = some .chunkEnd := by decide

theorem test_decode_flush :
    decodeTableWord 64 0x0300000000000000 = some .flush := by decide

theorem test_decode_reset :
    decodeTableWord 64 0x0400000000000000 = some .reset := by decide

theorem test_decode_read_result :
    decodeTableWord 64 0x0500000000000000 = some .readResult := by decide

theorem test_decode_read_status :
    decodeTableWord 64 0x0600000000000000 = some .readStatus := by decide

theorem test_decode_inject_env :
    decodeTableWord 64 0x070000003DCCCCCD = some (.injectEnv 0x3DCCCCCD) := by decide

theorem test_decode_inject_transition_mark :
    decodeTableWord 64 0x0800000143340000 = some (.injectTransition true 0x43340000) := by decide

theorem test_decode_inject_transition_gap :
    decodeTableWord 64 0x0800000042700000 = some (.injectTransition false 0x42700000) := by decide

theorem test_decode_set_target_freq :
    decodeTableWord 64 0x0900000044318000 = some (.setTargetFreq 0x44318000) := by decide

theorem test_decode_negative_zero :
    decodeTableWord 64 0x0100000080000000 = some (.sample 0x80000000) := by decide

theorem test_decode_nan_payload :
    decodeTableWord 64 0x010000007FC00000 = some (.sample 0x7FC00000) := by decide

/-- EN11 to EN15: the five kinds of illegal word. -/
theorem test_decode_illegal :
    decodeTableWord 64 0x0A00000000000000 = none ∧ decodeTableWord 64 0x8000000000000000 = none ∧
    decodeTableWord 64 0x0100000200000000 = none ∧ decodeTableWord 64 0x0100000100000000 = none ∧
    decodeTableWord 64 0x0000000000000001 = none := by decide

theorem test_decode_filter :
    decodeTableWord 8 0x80 = some .biquadStep ∧
    decodeTableWord 8 0x81 = some .lpfCascadeStep ∧
    decodeTableWord 8 0x89 = some .lpfDesign := by decide

theorem test_decode_demodulator :
    decodeTableWord 8 0x82 = some .loGen ∧
    decodeTableWord 8 0x83 = some .iqMix ∧
    decodeTableWord 8 0x84 = some .envelope ∧
    decodeTableWord 8 0x85 = some .afcUpdate ∧
    decodeTableWord 8 0x86 = some .phaseAdvance ∧
    decodeTableWord 8 0x87 = some .sdrRetune ∧
    decodeTableWord 8 0x88 = some .sdrStep := by decide

theorem test_decode_monitor :
    decodeTableWord 8 0x90 = some .monEnqueue ∧
    decodeTableWord 8 0x91 = some .monDequeue ∧
    decodeTableWord 8 0x92 = some .monTick ∧
    decodeTableWord 8 0x93 = some .welchPsd ∧
    decodeTableWord 8 0x94 = some .noiseFloor ∧
    decodeTableWord 8 0x95 = some .peakSearch ∧
    decodeTableWord 8 0x96 = some .parabolicRefine ∧
    decodeTableWord 8 0x97 = some .acceptAndSmooth ∧
    decodeTableWord 8 0x98 = some .freqPoll := by decide

theorem test_decode_thresholds :
    decodeTableWord 8 0xA0 = some .histPush ∧
    decodeTableWord 8 0xA1 = some .histSuggest ∧
    decodeTableWord 8 0xA2 = some .pctToHl ∧
    decodeTableWord 8 0xA3 = some .athUpdate := by decide

theorem test_decode_trigger :
    decodeTableWord 8 0xB0 = some .schmittRaw ∧
    decodeTableWord 8 0xB1 = some .debounceStep ∧
    decodeTableWord 8 0xB2 = some .trigStep := by decide

theorem test_decode_symbols :
    decodeTableWord 8 0xC0 = some .symGapEnd ∧
    decodeTableWord 8 0xC1 = some .symMarkEnd ∧
    decodeTableWord 8 0xC2 = some .symFlush ∧
    decodeTableWord 8 0xC3 = some .wpmUpdate ∧
    decodeTableWord 8 0xC4 = some .statsPush ∧
    decodeTableWord 8 0xC5 = some .statsAnalyze ∧
    decodeTableWord 8 0xC6 = some .settleMark ∧
    decodeTableWord 8 0xC7 = some .settleGap := by decide

theorem test_decode_beam :
    decodeTableWord 8 0xD0 = some .beamStep ∧
    decodeTableWord 8 0xD1 = some .emissionScore ∧
    decodeTableWord 8 0xD2 = some .lmGet ∧
    decodeTableWord 8 0xD3 = some .beamPrune ∧
    decodeTableWord 8 0xD4 = some .beamInjectSpace ∧
    decodeTableWord 8 0xD5 = some .beamGetResult ∧
    decodeTableWord 8 0xD6 = some .lmLoad := by decide

theorem test_decode_stages :
    decodeTableWord 8 0xE0 = some .emitText ∧
    decodeTableWord 8 0xE1 = some .envStage ∧
    decodeTableWord 8 0xE2 = some .symbolStage := by decide

/-- Reserved ids (R303). -/
theorem test_decode_reserved_ids :
    decodeTableWord 8 0x8A = none ∧ decodeTableWord 8 0x9F = none ∧ decodeTableWord 8 0xFF = none ∧
    decodeTableWord 8 0x7F = none := by decide

/-- R210: the first byte on the port is the least significant. EN2 as it is sent. -/
theorem test_word_bytes :
    encodeBytes (.sample 0x3F000000) = [0x00, 0x00, 0x00, 0x3F, 0x00, 0x00, 0x00, 0x01] := by decide

/-! ## Commands, lifecycle and faults (vectors CM1 to CM22) -/

/-- CM1: the six words at power-on are 0. -/
theorem test_CM1 : (run .readStatus State.reset).resp = [.status [0, 0, 0, 0, 0, 0]] := by decide
/-- CM2: SAMPLE at power-on. -/
theorem test_CM2 : w0 (run (.sample 0x3F000000) State.reset) = some 0x0000000100000311 := by decide
/-- CM3: an illegal word at power-on is CMD_ILLEGAL, not CMD_STATE. -/
theorem test_CM3 :
    w0 (after (step { State.reset with port := [0, 0, 0, 0, 1, 0, 0, 1] })) =
      some 0x0000000100000310 := by decide
/-- CM5: the filter order is checked first. -/
theorem test_CM5 :
    w0 (run .reset { State.reset with cfgIn := [{ recA with fs := some F64.zero, filterOrder := 3 }] })
      = some 0x0000000000000301 := by decide +kernel
/-- CM6: fs = 100. -/
theorem test_CM6 :
    w0 (run .reset { State.reset with cfgIn := [{ recA with fs := some F64.hundred }] }) =
      some 0x0000000000000302 := by decide +kernel
/-- CM7: initial_wpm = 150. -/
theorem test_CM7 :
    w0 (run .reset { State.reset with cfgIn := [{ recA with initialWpm := (f 0x4062C00000000000) }] }) =
      some 0x0000000000000304 := by decide +kernel
/-- CM9: a two-character key. -/
theorem test_CM9 :
    w0 (run .reset { State.reset with
      cfgIn := [{ recA with lm := some [(['A', 'B'], [(['C'], F64.negOne)])] }] }) =
      some 0x0000000000000303 := by decide +kernel
/-- CM10 and RS4: an accepted RESET. -/
theorem test_CM10 :
    w0 (run .reset { State.reset with cfgIn := [recA] }) = some 0x0000000000000100 := by
  decide +kernel
/-- CM11: SAMPLE 1.5. -/
theorem test_CM11 : w0 (run (.sample 0x3FC00000) sA) = some 0x0000000100000312 := by decide +kernel
/-- CM12: INJECT_ENV -1.0. -/
theorem test_CM12 : w0 (run (.injectEnv 0xBF800000) sA) = some 0x0000000700000312 := by
  decide +kernel
/-- CM13: SET_TARGET_FREQ 24000, which is fs / 2. -/
theorem test_CM13 : w0 (run (.setTargetFreq 0x46BB8000) sA) = some 0x0000000900000312 := by
  decide +kernel
/-- CM14: SET_TARGET_FREQ 703 from 700 is within 5 Hz. -/
theorem test_CM14 :
    let s := { sA with demod := { sA.demod with f0 := (f 0x4085E00000000000) } }
    (run (.setTargetFreq 0x442FC000) s).demod.f0 = (f 0x4085E00000000000) ∧
      w0 (run (.setTargetFreq 0x442FC000) s) = some 0x0000000000000100 := by decide +kernel
/-- CM15: CHUNK_END with the monitor disabled. -/
theorem test_CM15 : (run .chunkEnd sA).pc = 1 ∧ (run .chunkEnd sA).link = sA.link := by
  decide +kernel
/-- CM16: FLUSH of an untouched block. -/
theorem test_CM16 : w0 (run .flush sA) = some 0x0000000000000200 ∧ (run .flush sA).dec.out = [] := by
  decide +kernel
/-- CM17: FLUSH again. -/
theorem test_CM17 : w0 (run .flush { sA with life := .flushed }) = some 0x0000000300000311 := by
  decide +kernel
/-- CM18: READ_RESULT of the initial beam. -/
theorem test_CM18 : (run .readResult { sA with life := .flushed }).resp = [.result []] := by
  decide +kernel
/-- CM19: SAMPLE while FAULTED is refused silently. -/
theorem test_CM19 :
    let s := run (.sample 0x3F000000) State.reset
    w0 (run (.sample 0x3F000000) s) = some 0x0000000100000311 ∧
      (run (.sample 0x3F000000) s).pc = 2 := by decide
/-- CM20: RESET leaves FAULTED. -/
theorem test_CM20 :
    w0 (run .reset { run (.sample 0x3F000000) State.reset with cfgIn := [recA] }) =
      some 0x0000000000000100 := by decide +kernel
/-- CM22: a full queue drops the new chunk. -/
theorem test_CM22 :
    let s := { sM with cfg := { sM.cfg with monQueueCapacity := 1 },
                       link := { sM.link with queue := [[F64.one]], chunkAcc := [F64.half] } }
    (run .chunkEnd s).adv.chunkDropped = 1 ∧ (run .chunkEnd s).link.queue = [[F64.one]] := by
  decide +kernel
/-- RS1: the derived registers under CFG_A. -/
theorem test_RS1 :
    sA.cfg.fc = (f 0x4049000000000000) ∧ sA.cfg.hop = 2048 ∧ sA.cfg.monRingLen = 10240 ∧
      sA.cfg.dsFactor = 480 ∧ sA.cfg.histCapacity = 3000 ∧ sA.cfg.debounceCount = (f 0x4082000000000000) ∧
      sA.cfg.tickSamples = 9600 := by decide +kernel
/-- RS3: the derived registers at fs 1600. -/
theorem test_RS3 :
    sM.cfg.hop = 8 ∧ sM.cfg.monRingLen = 40 ∧ sM.cfg.dsFactor = 16 ∧
      sM.cfg.debounceCount = (f 0x4033333333333333) ∧ sM.cfg.tickSamples = 40 := by decide +kernel
/-- R19: floor of 1e20 is the integer it names. -/
theorem test_floor_large : F64.floor (f 0x4415AF1D78B58C40) = 100000000000000000000 := by decide +kernel

/-! ## Low-pass and demodulator (vectors LP, SD) -/

/-- Section 0 of LP2. -/
def lp2 : Biquad :=
  ⟨(f 0x3EE652E26606D93F), (f 0x3EF652E26606D93F), (f 0x3EE652E26606D93F),
   (f 0xBFFFCE96A6233764), (f 0x3FEF9D8697D006E6), F64.zero, F64.zero⟩

/-- A state with operands in the latch. -/
def latch (s : State) (x y z : F64) : State := { s with args := { s.args with x := x, y := y, z := z } }

/-- LP4: section 0 from zero state, x = 1. -/
theorem test_LP4 :
    let s := latch { sA with demod := { sA.demod with lpfI := [lp2] } } F64.one F64.zero F64.zero
    (run .biquadStep s).ret = .num (f 0x3EE652E26606D93F) := by decide +kernel
/-- LP7: x = 0 from zero state. -/
theorem test_LP7 :
    let s := latch { sA with demod := { sA.demod with lpfI := [lp2] } } F64.zero F64.zero F64.zero
    (run .lpfCascadeStep s).ret = .num F64.zero ∧ (run .lpfCascadeStep s).demod.lpfI = [lp2] := by
  decide +kernel
/-- LPF_DESIGN: N/2 sections in both branches (R502, R503). -/
theorem test_lpf_design :
    (run .lpfDesign sA).demod.lpfI.length = 2 ∧ (run .lpfDesign sA).demod.lpfQ.length = 2 := by
  decide +kernel
/-- SD2. -/
theorem test_SD2 :
    (run .iqMix (latch sA F64.half F64.one F64.zero)).ret = .pair F64.half F64.zero := by
  decide +kernel
/-- SD3. -/
theorem test_SD3 :
    (run .envelope (latch sA (f 0x3F689374BC6A7EFA) (f 0x3F70624DD2F1A9FC) F64.zero)).ret = .num (f 0x3F847AE147AE147B) := by
  decide +kernel
/-- SD4: the increment for 700 Hz at 48000 Hz. -/
theorem test_SD4 :
    phaseIncOf (f 0x4085E00000000000) (f 0x40E7700000000000) = (f 0x3FB7750CB50C6E5A) := by decide +kernel
/-- SD5: the phase wraps. -/
theorem test_SD5 :
    let s := latch { sA with demod := { sA.demod with phi := (f 0x4018CCCCCCCCCCCD) } }
      (f 0x3FB7750CB50C6E5A) F64.zero F64.zero
    (run .phaseAdvance s).demod.phi = (f 0x3F814B56B9A2DC00) := by decide +kernel
/-- SD6: the correction, here with the previous phase chosen so that the difference is 0.001. -/
theorem test_SD6 :
    let d : Demod := { sA.demod with f0 := (f 0x4085E00000000000), afcFreq := (f 0x4085E00000000000) }
    (afcCorrect sA.cfg d F64.thousandth).afcFreq = (f 0x4085DFFCDEF26AD6) := by decide +kernel
/-- R603: below the gate the count is cleared. -/
theorem test_afc_gate :
    let s := latch { sA with demod := { sA.demod with afcCount := 4 } } F64.zero F64.zero F64.zero
    (run .afcUpdate s).demod.afcCount = 0 := by decide +kernel
/-- SD11. -/
theorem test_SD11 :
    let s := latch { sA with demod := { sA.demod with f0 := (f 0x4085E00000000000) } }
      (f 0x4086073333333333) F64.zero F64.zero
    (run .sdrRetune s).demod.f0 = (f 0x4085E00000000000) := by decide +kernel
/-- SD12. -/
theorem test_SD12 :
    let s := latch sM (f 0x4079000000000000) F64.zero F64.zero
    (run .sdrRetune s).demod.f0 = (f 0x4079000000000000) ∧
      (run .sdrRetune s).demod.afcPhaseInc = (f 0x3FF921FB54442D18) := by decide +kernel
/-- R600: without AFC the phase advances by `(TWO_PI * f0) / fs`. -/
theorem test_sdr_step_phase :
    let s := { sA with cfg := { sA.cfg with afcEnabled := false },
                       demod := { sA.demod with f0 := (f 0x4085E00000000000) } }
    (run .sdrStep s).demod.phi = (f 0x3FB7750CB50C6E5A) := by decide +kernel

/-! ## Spectrum monitor (vectors MO) -/

/-- The spectrum of MO2. -/
def mo2 : List F64 :=
  [(f 0x3F2257895B03C5CB), (f 0x3F342E9E1DF1C0C2), (f 0x3F63370D7BD619A4),
   (f 0x3FF0D4D8313AC9C6), (f 0x400C200000000000), (f 0x3FF0D4D8313AC9C8),
   (f 0x3F63370D7BD61A5F), (f 0x3F342E9E1DF1BE91), (f 0x3F2257895B03C5CB)]

/-- A state with a vector in the latch. -/
def latchVec (s : State) (v : List F64) (i : Nat) : State :=
  { s with args := { s.args with vec := v, index := i } }

/-- MO1: four segments of a full ring. -/
theorem test_MO1 : segmentCount 16 8 40 = 4 := by decide
/-- MO3. -/
theorem test_MO3 :
    (run .noiseFloor (latchVec sM mo2 0)).ret = .num (f 0x3F63370D7BD619A4) := by decide +kernel
/-- MO4. -/
theorem test_MO4 :
    bandBins sM.cfg = [2, 3, 4, 5, 6, 7] ∧ (run .peakSearch (latchVec sM mo2 0)).ret = .bin (some 4) := by
  decide +kernel
/-- MO5. -/
theorem test_MO5 :
    (run .parabolicRefine (latchVec sM mo2 4)).ret = .num (f 0x3C89FA43FC8E56DF) ∧
      refinedFreq sM.cfg 4 (f 0x3C89FA43FC8E56DF) = (f 0x4079000000000000) := by decide +kernel
/-- MO6: the first accepted result is latched and published. -/
theorem test_MO6 :
    let t := run .acceptAndSmooth
      (latch sM (f 0x400C200000000000) (f 0x3F63370D7BD619A4) (f 0x4079000000000000))
    t.mon.fsmooth = (f 0x4079000000000000) ∧ t.mon.locked = true ∧ t.link.freqSlot = some (f 0x4079000000000000) := by
  decide +kernel
/-- MO8: an all-zero spectrum has the floor 1e-9 and is rejected. -/
theorem test_MO8 :
    (run .noiseFloor (latchVec sM (List.replicate 9 F64.zero) 0)).ret = .num (f 0x3E112E0BE826D695) ∧
      (run .acceptAndSmooth (latch sM F64.zero (f 0x3E112E0BE826D695) (f 0x4079000000000000))).mon.locked = false := by
  decide +kernel
/-- MO9: a ring of 15 samples has no segment; the tick does nothing. -/
theorem test_MO9 :
    let s := { sM with mon := { sM.mon with ring := ⟨List.replicate 40 F64.one, 15, 15⟩ } }
    (run .monTick s).link.freqSlot = none ∧ (run .monTick s).mon.locked = false := by decide +kernel
/-- MO10: a band without a bin. -/
theorem test_MO10 :
    bandBins { sM.cfg with minFreqHz := (f 0x4086300000000000), maxFreqHz := (f 0x4088B00000000000) } = [] := by
  decide +kernel
/-- R701: a chunk goes from the queue into the ring, and the tick account counts its samples. -/
theorem test_mon_dequeue :
    let t := run .monDequeue { sM with link := { sM.link with queue := [[F64.one, F64.half]] },
                                       mon := { sM.mon with ring := Ring.empty 40 } }
    t.link.queue = [] ∧ t.mon.sinceTick = 2 ∧ t.mon.ring.wi = 2 ∧
      t.mon.ring.buf.take 2 = [F64.one, F64.half] := by decide +kernel
/-- R410: a chunk is appended after the queued ones. -/
theorem test_mon_enqueue :
    let s := latchVec { sM with link := { sM.link with queue := [[F64.one]] } } [F64.half] 0
    (run .monEnqueue s).link.queue = [[F64.one], [F64.half]] := by decide +kernel
/-- R411: the slot is taken. -/
theorem test_freq_poll :
    let t := run .freqPoll { sM with link := { sM.link with freqSlot := some F64.ten } }
    t.ret = .freq (some F64.ten) ∧ t.link.freqSlot = none := by decide +kernel
/-- R704: nine bins for N = 16. -/
theorem test_welch_bins : (welchPsd sM.cfg (List.replicate 40 F64.zero)).length = 9 := by
  decide +kernel

/-! ## Thresholds (vectors TH) -/

/-- A history of the given envelopes, oldest first, in a ring of 30. -/
def withHist (v : List F64) : State :=
  { sA with cfg := { sA.cfg with histCapacity := 30 },
            thr := { sA.thr with hist :=
              ⟨v ++ List.replicate (30 - v.length) F64.zero, v.length, v.length⟩ } }

/-- TH1: the down-sampling factor at 48000, 44100 and 1000 Hz. -/
theorem test_TH1 :
    Machine.sizeOf (F64.div (f 0x40E7700000000000) F64.hundred) = 480 ∧ Machine.sizeOf (F64.div (f 0x40E5888000000000) F64.hundred) = 441 ∧
      Machine.sizeOf (F64.div F64.thousand F64.hundred) = 10 := by decide +kernel
/-- TH2: the percentiles of ten values. -/
theorem test_TH2 :
    (run .histSuggest (withHist
      [(f 0x3FF0000000000000), (f 0x3FE0000000000000), (f 0x3FB999999999999A), (f 0x3FE999999999999A),
       (f 0x3FC999999999999A), (f 0x3FD3333333333334), (f 0x3FE6666666666667), (f 0x3FD999999999999A),
       (f 0x3FE3333333333334), (f 0x3FECCCCCCCCCCCCD)])).ret =
      .suggestion ⟨(f 0x3FD70A3D70A3D70B), F64.one, F64.fifth, false⟩ := by decide +kernel
/-- TH2: the pair of PCT_TO_HL. -/
theorem test_TH2_pair :
    (run .pctToHl (latch sA (f 0x3FD70A3D70A3D70B) F64.one F64.fifth)).ret =
      .pair (f 0x3FD999999999999A) (f 0x3FD47AE147AE147C) := by decide +kernel
/-- TH3: a flat history is squelched. -/
theorem test_TH3 :
    (run .histSuggest (withHist (List.replicate 20 F64.half))).ret =
        .suggestion ⟨F64.oneAndHalf, F64.half, F64.half, true⟩ ∧
      (run .histSuggest (withHist (List.replicate 20 F64.half))).adv.squelch = 1 := by
  decide +kernel
/-- TH6: the sentinel. -/
theorem test_TH6 :
    (run .athUpdate (latch sA F64.zero F64.zero F64.zero)).ret = .pair F64.ten F64.nine := by
  decide +kernel
/-- TH7: the first pair. -/
theorem test_TH7 :
    (run .athUpdate (latch sA F64.half F64.zero F64.zero)).ret =
      .pair (f 0x3FD19B71758E2196) (f 0x3FCCD14E3BCD35A8) := by decide +kernel
/-- TH8: the tenth of ten envelopes is stored. -/
theorem test_TH8 :
    let s := latch { sA with cfg := { sA.cfg with dsFactor := 10 }, thr := { sA.thr with dsCount := 9 } }
      F64.half F64.zero F64.zero
    (run .histPush s).ret = .bool true ∧ (run .histPush s).thr.hist.fill = 1 ∧
      (run .histPush s).thr.dsCount = 0 := by decide +kernel

/-! ## Trigger (vectors TR) -/

/-- fs 1000 and a debounce count. -/
def trigCfg (d : F64) : Cfg := { sA.cfg with fs := F64.thousand, debounceCount := d }

/-- TR1: D = 2, the commit at the fifth sample, the event {false, 1.0}. -/
theorem test_TR1 :
    let s : State := { latch sA F64.one F64.half F64.twoFifths with
      cfg := trigCfg F64.two
      trig := ⟨false, 0, 4, true, 1⟩ }
    (run .trigStep s).ret = .event (some ⟨false, F64.one⟩) ∧
      (run .trigStep s).trig = ⟨true, 1, 5, false, 1⟩ := by decide +kernel
/-- TR2: a run of three does not commit. -/
theorem test_TR2 :
    let s : State := { latch sA F64.one F64.half F64.twoFifths with
      cfg := trigCfg F64.two
      trig := ⟨false, 0, 3, true, 1⟩ }
    (run .trigStep s).ret = .event none := by decide +kernel
/-- TR6: the comparison with the high threshold is strict. -/
theorem test_TR6 :
    (run .schmittRaw (latch sA F64.half F64.half F64.twoFifths)).ret = .bool false ∧
      (run .schmittRaw (latch sA (f 0x3FE00014F8B588E3) F64.half F64.twoFifths)).ret = .bool true := by
  decide +kernel
/-- TR5: between the thresholds the mark is held. -/
theorem test_TR5 :
    let s : State := { latch sA (f 0x3FDCCCCCCCCCCCCD) F64.half F64.twoFifths with trig := ⟨true, 0, 3, false, 0⟩ }
    (run .schmittRaw s).ret = .bool true := by decide +kernel
/-- R902: a new raw decision is pending from the current sample. -/
theorem test_debounce_pending :
    let s : State := { sA with trig := ⟨false, 0, 7, false, 0⟩, args := { sA.args with flag := true } }
    (run .debounceStep s).trig = ⟨false, 0, 7, true, 7⟩ := by decide +kernel

/-! ## Symbol timing and the analyzer (vectors SV, AN) -/

/-- A state with this pending mark, staged gap and pulse buffer, unit 60. -/
def symState (mark gap : F64) (buf : List F64) : State :=
  { sA with sym := { sA.sym with pendingMarkMs := mark, lastGapMs := gap, pulseBuf := buf,
                                 stats := Ring.empty 20 } }

/-- SV10: INJECT_TRANSITION of a 1000 ms gap. -/
theorem test_SV10 :
    (run (.injectTransition false 0x447A0000) sA).sym.lastGapMs = (f 0x408F400000000000) := by decide +kernel
/-- SV3: 100 + (10 + 70). -/
theorem test_SV3 :
    let t := run (.injectTransition true 0x428C0000) (symState (f 0x4059000000000000) F64.ten [])
    t.sym.pendingMarkMs = (f 0x4066800000000000) ∧ t.sym.lastGapMs = F64.zero := by decide +kernel
/-- SV2: the 10 ms mark is folded into the gap with the gap pulse before it. -/
theorem test_SV2 :
    let t := run .settleMark (symState F64.ten F64.zero [F64.one, F64.one])
    t.sym.pulseBuf = [F64.one] ∧ t.sym.lastGapMs = (f 0x4051800000000000) := by decide +kernel
/-- SV8: a 240 ms mark moves the unit from 60 to 62. -/
theorem test_SV8 :
    (run .wpmUpdate (latch (symState F64.zero F64.zero []) (f 0x406E000000000000) F64.zero F64.zero)).sym.unitTimeMs =
      (f 0x404F000000000000) := by decide +kernel
/-- SV7: below 10 ms the unit becomes 60 and the event is counted. -/
theorem test_SV7 :
    let s := symState F64.zero F64.zero []
    let t := run .wpmUpdate (latch
      { s with sym := { s.sym with unitTimeMs := (f 0x40248F9DB22D0E55) } } (f 0x401C000000000000) F64.zero F64.zero)
    t.sym.unitTimeMs = F64.sixty ∧ t.adv.unitReset = 1 := by decide +kernel
/-- SV5: the pulse 9.0 starves the beam at the flush. -/
theorem test_SV5 :
    let t := run .symFlush (symState (f 0x4080E00000000000) F64.zero [])
    t.adv.decoderStarved = 1 ∧ t.sym.pulseBuf = [] ∧ t.sym.pendingMarkMs = F64.zero := by
  decide +kernel
/-- SV9: a mark after the lead gap is staged. -/
theorem test_SV9 :
    let t := run .symMarkEnd (latch (symState F64.zero (f 0x408F400000000000) []) (f 0x4066800000000000) F64.zero F64.zero)
    t.sym.pendingMarkMs = (f 0x4066800000000000) ∧ t.sym.lastGapMs = F64.zero ∧ t.sym.pulseBuf = [] := by
  decide +kernel
/-- R1004: a gap of one unit after a mark is the pulse 1.0. -/
theorem test_settle_gap :
    (run .settleGap (symState F64.zero F64.sixty [F64.three])).sym.pulseBuf =
      [F64.three, F64.one] := by decide +kernel
/-- R1001. -/
theorem test_sym_gap_end :
    (run .symGapEnd (latch (symState F64.zero F64.ten []) F64.five F64.zero F64.zero)).sym.lastGapMs =
      (f 0x402E000000000000) := by decide +kernel
/-- R1009. -/
theorem test_stats_push :
    let t := run .statsPush (latch (symState F64.zero F64.zero []) F64.sixty F64.zero F64.zero)
    t.sym.stats.fill = 1 ∧ t.sym.stats.wi = 1 ∧ t.sym.stats.buf.head? = some F64.sixty := by
  decide +kernel

/-- A full window of four marks. -/
def window (v : List F64) : State :=
  { sA with cfg := { sA.cfg with statsWindowSize := 4 }, sym := { sA.sym with stats := ⟨v, 0, 4⟩ } }

/-- AN2: the largest central gap is 10. -/
theorem test_AN2 :
    (run .statsAnalyze (window [(f 0x404E000000000000), (f 0x404E000000000000), (f 0x4051800000000000), (f 0x4051800000000000)])).ret = .analysis none := by
  decide +kernel
/-- AN4. -/
theorem test_AN4 :
    (run .statsAnalyze (window [(f 0x4062C00000000000), (f 0x4049000000000000), (f 0x406A400000000000), (f 0x4051800000000000)])).ret =
      .analysis (some ⟨(f 0x405B800000000000), (f 0x404E000000000000), (f 0x4024000000000000), (f 0x4066800000000000), (f 0x403E000000000000), (f 0x3FEAAAAAAAAAAAAB)⟩) := by
  decide +kernel

/-! ## Beam decoder (vectors BM) -/

/-- BM3. -/
theorem test_BM3 :
    let s := { latch sA F64.quarter F64.twoFifths F64.zero with
      args := { (latch sA F64.quarter F64.twoFifths F64.zero).args with
        vec := [(f 0x3FF3333333333333), (f 0x3FECCCCCCCCCCCCD), (f 0x400599999999999A)], vec2 := sequenceOf ['.', '-'] } }
    (run .emissionScore s).ret = .num (f 0xBFE5CCCCCCCCCCC8) := by decide +kernel
/-- BM4. -/
theorem test_BM4 :
    let s := { sA with args := { sA.args with vec := [F64.one, F64.one], vec2 := sequenceOf ['.', '-'] } }
    (run .emissionScore s).ret = .num F64.negThousand := by decide +kernel
/-- BM15, with an entry for E too: the two candidates of the pulse 2.0. -/
theorem test_BM15 :
    let lm : LangModel := [([], [(['T'], F64.half.neg), (['E'], F64.negOne)])]
    (run .beamStep { latchVec sA [F64.two] 0 with dec := { sA.dec with lm := lm } }).dec.paths =
      [⟨['T'], some 'T', (f 0xC00CFFFFFFFFFFFF)⟩, ⟨['E'], some 'E', (f 0xC022000000000000)⟩] := by decide +kernel
/-- BM14: starved. -/
theorem test_BM14 :
    let t := run .beamStep (latchVec sA [F64.nine] 0)
    t.dec.paths = [Path.initial] ∧ t.adv.decoderStarved = 1 := by decide +kernel
/-- BM11: of two paths with one last character the better stays; a path outside the window goes. -/
theorem test_BM11 :
    let c : List Path := [⟨['E', 'T'], some 'T', F64.five.neg⟩, ⟨['T', 'T'], some 'T', F64.one.neg⟩,
                          ⟨['A'], some 'A', F64.twelve.neg⟩, ⟨['T', 'E'], some 'E', F64.two.neg⟩]
    (run .beamPrune { sA with args := { sA.args with cands := c } }).ret =
      .paths [⟨['T', 'T'], some 'T', F64.one.neg⟩, ⟨['T', 'E'], some 'E', F64.two.neg⟩] := by
  decide +kernel
/-- BM13: no space before the first character. -/
theorem test_BM13 : (run .beamInjectSpace sA).dec.paths = [Path.initial] := by decide +kernel
/-- BM18: a positive log-probability is refused. -/
theorem test_BM18 :
    lmLoad (some [(['A'], [(['B'], F64.half)])]) = .error .cfgLmInvalid := by
  simp [lmLoad, lmValid, lmEntryValid, show F64.le F64.half F64.zero = false by decide]
/-- R1108's example of a valid map: -0.5 after the empty key. -/
theorem test_LmLoad_valid :
    (lmLoad (some [([], [(['T'], F64.half.neg)])])).toOption = some [([], [(['T'], F64.half.neg)])] := by
  decide +kernel
/-- R1109: an entry of the map. -/
theorem test_lm_get :
    let s := { sA with dec := { sA.dec with lm := [(['A'], [(['T'], F64.negOne)])] },
                       args := { sA.args with prev := some 'A', next := 'T' } }
    (run .lmGet s).ret = .num F64.negOne := by decide +kernel
/-- R1107. -/
theorem test_beam_get_result :
    (run .beamGetResult { sA with dec := { sA.dec with paths := [⟨['P'], some 'P', F64.zero⟩] } }).ret =
      .text ['P'] := by decide +kernel
/-- BM19: the sequences of A, K and $. -/
theorem test_BM19 :
    patterns.lookup 'A' = some [F64.one, F64.one, F64.three] ∧
      patterns.lookup 'K' = some [F64.three, F64.one, F64.one, F64.one, F64.three] ∧
      (patterns.lookup '$').map List.length = some 13 := by decide

/-! ## Stages -/

/-- P2b: a best sentence that extends the last emission gives the suffix. -/
theorem test_emit_text :
    (run .emitText { sA with dec := { sA.dec with
      paths := [⟨['C', 'Q', ' '], some ' ', F64.zero⟩], lastEmitted := ['C'], out := [['C']] } }).dec.out =
      [['C'], ['Q', ' ']] := by decide +kernel
/-- R414: the end of a gap adds to the staged gap. -/
theorem test_symbol_stage :
    (run .symbolStage (latch sA F64.five F64.zero F64.zero)).sym.lastGapMs = F64.five := by
  decide +kernel
/-- P3: sample 9 stores, and a history of one value is squelched at three times it. -/
theorem test_env_stage :
    let s : State := { sA with cfg := { sA.cfg with dsFactor := 10, histCapacity := 30 },
                               thr := { sA.thr with dsCount := 9, hist := Ring.empty 30 },
                               trig := ⟨false, 0, 9, false, 0⟩ }
    let t := run (.injectEnv 0x3DCCCCCD) s
    t.thr.high = (f 0x3FD3333338000000) ∧ t.thr.low = (f 0x3FD3333338000000) ∧
      t.adv.squelch = 1 ∧ t.trig.total = 10 := by decide +kernel

/-! ## Witnesses: for each statement with hypotheses, values that meet them together -/

theorem ok_of_toOption {α : Type} {e : Except FaultCode α} {x : α} (h : e.toOption = some x) :
    e = .ok x := by
  cases e with
  | error c => cases h
  | ok y => simpa [Except.toOption] using h

theorem witness_DecodeAndEncodeAgree :
    Instr.wf (.injectTransition true 0x43340000) = true ∧ Instr.wf .sdrStep = true ∧
      IsHostCommand .nop ∧ decode (.command 0x0000000000000000) = .ok .nop ∧
      decode (.microOp 0xE2) = .ok .symbolStage := by decide

/-- A command at the port with and without a turn, the last byte of the second word still missing; a
micro-op turn. -/
theorem witness_StepRunsTheDecodedInstruction :
    (State.reset.turns = [] ∧
      decodeStream (wordBytes 0x0600000000000000 ++ [1, 2, 3, 4, 5, 6, 7]) =
        .ok (.readStatus, [1, 2, 3, 4, 5, 6, 7])) ∧
      decodeMicroOp 0x91 = .ok .monDequeue := by decide

/-- Seven bytes; the words 0x0A.. and 0x7F.. and 0x80... -/
theorem witness_StepOnWordsThatDoNotDecode :
    ([1, 2, 3, 4, 5, 6, 7] : List Byte).length < 8 ∧
      decodeWord 0x0A00000000000000 = .error .reservedOpcode ∧
      decodeWord 0x7F00000000000000 = .error .reservedOpcode ∧
      decodeWord 0x8000000000000000 = .error .microOpSpace ∧
      (0x0A : Byte) ++ (0 : Byte) ++ (0 : Byte) ++ (0 : Byte) ++ (0 : Byte) ++ (0 : Byte) ++ (0 : Byte) ++
        (0 : Byte) = 0x0A00000000000000#64 := by decide

theorem witness_EveryStepGoesOn :
    decodeMicroOp 0x80 = .ok .biquadStep ∧ decodeMicroOp 0x8A = .error .unassignedMicroOp ∧
      IsHostCommand .reset ∧ ¬ IsHostCommand .emitText := by decide

/-- A faulted block with a RESET word and a valid record waiting. -/
def sF : State :=
  { State.reset with life := .faulted, faultCode := 0x11, faultInfo := 0x01, cfgIn := [recA],
                     port := wordBytes 0x0400000000000000 }

theorem witness_FaultedIsLeftOnlyByReset :
    (IsHostCommand (.sample 0) ∧ Instr.sample 0 ≠ .reset ∧ Instr.sample 0 ≠ .readStatus ∧
      sF.life = .faulted) ∧ isNext (step sF) = true ∧ (after (step sF)).life = .running ∧
      (after (step sF)).faultCode ≠ sF.faultCode ∧
      (Instr.lmLoad ≠ .reset ∧ sF.args.lm = none ∧ isNext (exec .lmLoad sF) = true ∧
        (after (exec .lmLoad sF)).faultCode = 0x11) := by
  decide +kernel

theorem witness_CommandNotAdmittedFaults :
    (Instr.fields (.sample 0) = some ⟨0x01, 0, false, 0⟩ ∧ State.reset.life = .unconfigured ∧
      Instr.sample 0 ≠ .nop ∧ Instr.sample 0 ≠ .reset ∧ Instr.sample 0 ≠ .readStatus) ∧
    (Instr.fields .flush = some ⟨0x03, 0, false, 0⟩ ∧ (run .flush sA).life = .flushed ∧
      Instr.flush ≠ .nop ∧ Instr.flush ≠ .reset ∧ Instr.flush ≠ .readResult ∧
      Instr.flush ≠ .readStatus) := by decide +kernel

theorem witness_NopAndReads :
    sA.life = .running ∧ sA.dec.paths = Path.initial :: [] ∧ (run .flush sA).life = .flushed := by
  decide +kernel

/-- NaN; the next binary32 above 1.0; the smallest negative number; 0 Hz and fs / 2. -/
theorem witness_InputRangeFaults :
    sA.life = .running ∧ (F64.ofF32 0x7FC00000).isFinite = false ∧
      F64.lt F64.one (F64.ofF32 0x3F800001).abs = true ∧
      F64.lt (F64.ofF32 0x80000001) F64.zero = true ∧
      F64.le (F64.ofF32 0x00000000) F64.zero = true ∧
      F64.le (sA.cfg.fs.div F64.two) (F64.ofF32 0x46BB8000) = true := by decide +kernel

/-- RUNNING with a buffer of one pulse that is full, D = 2, and a trigger about to commit the end of a
mark. -/
def sFull (mark gap : F64) : State :=
  { symState mark gap [F64.three] with
    cfg := trigCfg F64.two
    trig := ⟨true, 0, 4, true, 1⟩
    demod := { sA.demod with lpfI := [], lpfQ := [] }
    params := { sA.params with pulseBufCapacity := some 1 } }

theorem sFull_endsMark : EndsMark (sFull F64.sixty F64.zero) F64.zero := by
  have h : (trigStep (trigCfg F64.two) ⟨true, 0, 4, true, 1⟩ F64.zero
      (thresholdStage (sFull F64.sixty F64.zero) F64.zero).thr.high
      (thresholdStage (sFull F64.sixty F64.zero) F64.zero).thr.low).toOption =
      some (⟨false, 1, 5, false, 1⟩, some ⟨true, F64.one⟩) := by decide +kernel
  exact ⟨_, _, ok_of_toOption h, rfl⟩

/-- The product of 0.0 and a number of [-1, 1] is a zero. -/
theorem zero_mul_bounded {c : F64} (h1 : F64.le F64.negOne c = true) (h2 : F64.le c F64.one = true) :
    ∃ s, F64.zero.mul c = F64.ofSignMag s 0 := by
  obtain ⟨-, hn, k1⟩ := Laws.le_iff.1 h1
  obtain ⟨-, -, k2⟩ := Laws.le_iff.1 h2
  have hi : c.isInf = false := by
    by_contra hc
    have hm : c.mag = F64.infMag := by simpa [F64.isInf] using hc
    have e1 : F64.negOne.key = -0x3FF0000000000000 := by decide
    have e2 : F64.one.key = 0x3FF0000000000000 := by decide
    have e3 : F64.infMag = 0x7FF0000000000000 := rfl
    rw [e1] at k1
    rw [e2] at k2
    unfold F64.key at k1 k2
    rw [hm, e3] at k1 k2
    cases hs : c.sign <;> rw [hs] at k1 k2 <;> simp at k1 k2
  have hz : F64.zero.isNaN = false ∧ F64.zero.isInf = false ∧ F64.zero.units = 0 := by decide +kernel
  refine ⟨F64.zero.sign != c.sign, ?_⟩
  unfold F64.mul
  simp only [hn, hi, hz.1, hz.2.1, hz.2.2, Bool.or_self, Bool.false_eq_true, if_false, Nat.zero_mul]
  cases F64.zero.sign != c.sign <;> decide +kernel

/-- The sample 0.0 gives that state the envelope 0.0, whatever the oscillator answers. -/
theorem sFull_envelope :
    (sdrStep (sFull F64.sixty F64.zero).cfg (sFull F64.sixty F64.zero).demod (F64.ofF32 0)).2 =
      F64.zero := by
  have h0 : F64.ofF32 0 = F64.zero := by decide +kernel
  obtain ⟨a, ha⟩ := zero_mul_bounded (Config.numerics.cos_range F64.zero (by decide)).1
    (Config.numerics.cos_range F64.zero (by decide)).2
  obtain ⟨b, hb⟩ := zero_mul_bounded (Config.numerics.sin_range F64.zero (by decide)).1
    (Config.numerics.sin_range F64.zero (by decide)).2
  show envelopeOf ((F64.ofF32 0).mul (Config.numerics.cos F64.zero))
    ((F64.ofF32 0).mul (Config.numerics.sin F64.zero)) = F64.zero
  rw [h0, ha, hb]
  cases a <;> cases b <;> decide +kernel

/-- Each condition of an overflow: the counter's limit, a full chunk, a full pulse buffer at a mark's
pulse, at a gap's, and at the end of a mark, by an envelope and by a sample. -/
theorem witness_CounterOverflowFaults :
    ((sFull F64.sixty F64.zero).life = .running ∧ (F64.ofF32 0).isFinite = true ∧
      F64.lt (F64.ofF32 0) F64.zero = false ∧ F64.lt F64.one (F64.ofF32 0).abs = false ∧
      F64.lt F64.one (F64.ofF32 0x3F800000).abs = false) ∧
    ({ sA.trig with total := BitVec.allOnes 64 } : Trigger).total = BitVec.allOnes 64 ∧
    (sM.cfg.monitorEnabled = true ∧ (1 : Nat) ≤ [F64.one].length) ∧
    MarkOverflows (sFull F64.sixty F64.zero) ∧ GapOverflows (sFull F64.zero F64.sixty) ∧
    MarkEndOverflows (sFull F64.sixty F64.zero) ∧ MarkEndOverflows (sFull F64.zero F64.sixty) ∧
    EndsMark (sFull F64.sixty F64.zero) (F64.ofF32 0) ∧
    EndsMark (sFull F64.sixty F64.zero)
      (sdrStep (sFull F64.sixty F64.zero).cfg (sFull F64.sixty F64.zero).demod (F64.ofF32 0)).2 := by
  have hm : MarkOverflows (sFull F64.sixty F64.zero) :=
    ⟨by decide +kernel, by decide +kernel, 1, rfl, by decide⟩
  have hg : GapOverflows (sFull F64.zero F64.sixty) :=
    ⟨by decide +kernel, by decide +kernel, by decide, 1, rfl, by decide⟩
  have h0 : F64.ofF32 0 = F64.zero := by decide +kernel
  exact ⟨by decide +kernel, rfl, by decide +kernel, hm, hg, ⟨by decide +kernel, .inl hm⟩,
    ⟨by decide +kernel, .inr ⟨sFull F64.zero F64.sixty,
      by unfold settleMark; exact if_neg (by decide +kernel), hg⟩⟩,
    h0 ▸ sFull_endsMark, sFull_envelope ▸ sFull_endsMark⟩

/-- The same symbol buffer of one pulse, with room for one more: a capacity of 2. -/
def sRoom (mark gap : F64) : State :=
  { sFull mark gap with params := { sA.params with pulseBufCapacity := some 2 } }

theorem sRoom_room (mark gap : F64) : ¬ PulseBufFull (sRoom mark gap) := by
  rintro ⟨c, hc, hl⟩
  cases hc
  exact absurd hl (show ¬ 2 ≤ [F64.three].length by decide)

theorem sRoom_mark (mark gap : F64) : ¬ MarkOverflows (sRoom mark gap) :=
  fun h => sRoom_room mark gap h.2.2

theorem sRoom_gap (mark gap : F64) : ¬ GapOverflows (sRoom mark gap) :=
  fun h => sRoom_room mark gap h.2.2.2

/-- With the buffer one below its capacity SYM_MARK_END has room for the gap's pulse. -/
theorem sRoom_markEnd : ¬ MarkEndOverflows (sRoom F64.zero F64.sixty) := by
  have hs : settleMark (sRoom F64.zero F64.sixty) = .ok (sRoom F64.zero F64.sixty) := by
    unfold settleMark
    exact if_neg (by decide +kernel)
  rintro ⟨_, h | ⟨u, hu, hg⟩⟩
  · exact sRoom_mark _ _ h
  · rw [hs, Except.ok.injEq] at hu
    exact sRoom_gap _ _ (hu ▸ hg)

/-- R206: the pulse that fills a buffer of capacity 2 is appended, by SETTLE_GAP and by SETTLE_MARK. -/
theorem test_capacity_is_reached :
    (after (exec .settleGap (sRoom F64.zero F64.sixty))).sym.pulseBuf.length = 2 ∧
      (after (exec .settleMark (sRoom F64.sixty F64.zero))).sym.pulseBuf.length = 2 := by
  decide +kernel

/-- R207: SAMPLE fills an accumulator of capacity 1, and faults on it when it is full. -/
def sChunk (acc : List F64) : State :=
  { sM with link := { sM.link with chunkAcc := acc }
            params := { sM.params with chunkCapacity := some 1 } }

theorem sChunk_room : ¬ ChunkFull (sChunk []) := by
  rintro ⟨_, c, hc, hl⟩
  cases hc
  exact absurd hl (by decide)

theorem test_chunk_capacity_is_reached :
    (pushSample (sChunk []) F64.half).toOption.map (fun t => t.link.chunkAcc.length) = some 1 ∧
      (pushSample (sChunk [F64.half]) F64.half).toOption = none := by decide +kernel

theorem witness_FaultsArePrecise :
    isNext (exec (.sample 0x3FC00000) sA) = true ∧ sA.life ≠ .faulted ∧
      (run (.sample 0x3FC00000) sA).life = .faulted ∧
      (run .reset State.reset).life = .faulted := by decide +kernel

/-- 710 Hz, and the neighbours of 0 and of fs / 2. -/
theorem witness_SetTargetFreqRetunes :
    sA.life = .running ∧
      ([0x44318000#32, 0x00000001#32, 0x46BB7FFF#32].all fun p =>
        (F64.ofF32 p).isFinite && F64.lt F64.zero (F64.ofF32 p) &&
          F64.lt (F64.ofF32 p) (sA.cfg.fs.div F64.two)) = true := by decide +kernel

/-- 180 ms, 0.0, -0.0 and the largest binary32 number; a buffer one below its capacity. -/
theorem witness_InjectTransitionRuns :
    (sA.life = .running ∧
      ([0x43340000#32, 0x00000000#32, 0x80000000#32, 0x7F7FFFFF#32].all fun p =>
        (F64.ofF32 p).isFinite && !F64.lt (F64.ofF32 p) F64.zero) = true) ∧
    ¬ MarkEndOverflows sA ∧
    (sRoom F64.zero F64.sixty).life = .running ∧ ¬ MarkEndOverflows (sRoom F64.zero F64.sixty) :=
  ⟨by decide +kernel, not_markEndOverflows (by decide +kernel), by decide +kernel, sRoom_markEnd⟩

theorem witness_InjectEnvRuns :
    ((sRoom F64.zero F64.sixty).life = .running ∧ (F64.ofF32 0x80000000).isFinite = true ∧
      F64.lt (F64.ofF32 0x80000000) F64.zero = false ∧
      (sRoom F64.zero F64.sixty).trig.total ≠ BitVec.allOnes 64) ∧
    ¬ (EndsMark (sRoom F64.zero F64.sixty) (F64.ofF32 0x80000000) ∧
      MarkEndOverflows (sRoom F64.zero F64.sixty)) :=
  ⟨by decide +kernel, fun h => sRoom_markEnd h.2⟩

/-- The samples 1.0 and -1.0, with the monitor disabled, and enabled with an accumulator one below its
capacity. -/
theorem witness_SampleRuns :
    (sA.life = .running ∧ (sChunk []).life = .running ∧ (sChunk []).cfg.monitorEnabled = true ∧
      (F64.ofF32 0x3F800000).isFinite = true ∧ F64.lt F64.one (F64.ofF32 0x3F800000).abs = false ∧
      F64.lt F64.one (F64.ofF32 0xBF800000).abs = false ∧ sA.trig.total ≠ BitVec.allOnes 64 ∧
      (sChunk []).trig.total ≠ BitVec.allOnes 64) ∧
    ¬ ChunkFull sA ∧ ¬ MarkEndOverflows sA ∧ ¬ ChunkFull (sChunk []) ∧
    ¬ MarkEndOverflows (sChunk []) :=
  ⟨by decide +kernel, fun h => absurd h.1 (by decide +kernel),
    not_markEndOverflows (by decide +kernel), sChunk_room, not_markEndOverflows (by decide +kernel)⟩

/-- Disabled; FREE; REFERENCE with chunks that fill one tick period. -/
theorem witness_ChunkEndRuns :
    (sA.life = .running ∧ sA.cfg.monitorEnabled = false) ∧
      (sM.life = .running ∧ sM.cfg.monitorEnabled = true ∧ sM.params.schedule = .free) ∧
      (({ sM.params with schedule := .reference } : ModelParams).schedule = .reference ∧
        1 ≤ sM.cfg.tickSamples ∧
        sM.mon.sinceTick.toNat + [List.replicate 16 F64.zero, List.replicate 24 F64.zero].flatten.length <
          2 ^ 64 ∧
        (sM.mon.sinceTick.toNat + 40) / sM.cfg.tickSamples = 1) := by
  decide +kernel

theorem witness_FlushRuns :
    (sRoom F64.sixty F64.zero).life = .running ∧ ¬ MarkOverflows (sRoom F64.sixty F64.zero) :=
  ⟨by decide +kernel, sRoom_mark _ _⟩

theorem witness_ResetSetsEveryElement :
    ({ State.reset with cfgIn := [recA] } : State).cfgIn = recA :: [] ∧ validate recA = .ok [] :=
  ⟨rfl, ok_of_toOption (by decide +kernel)⟩

/-- One record for each failure: order 3; fs below 200; a bad parameter; no language model. -/
theorem witness_ResetReportsTheFirstFailure :
    (3 % 2 = 1 ∧ recA.filterOrder % 2 ≠ 1 ∧ ¬ recA.filterOrder < 2) ∧
      F64.lt F64.hundred F64.twoHundred = true ∧ sampleRateOk recA.fs = true ∧
      paramsOk { recA with initialWpm := (f 0x4062C00000000000) } = false ∧
      paramsOk { recA with lm := none } = true := by decide +kernel

theorem witness_ResetAcceptsExactlyTheConstraints : validate recA = .ok [] :=
  ok_of_toOption (by decide +kernel)

theorem witness_ConfigurationIsImmutable :
    isNext (exec .emitText sA) = true ∧ isNext (exec .reset sA) = true := by decide +kernel

theorem witness_AgentsOwnTheirState :
    (IsHostCommand .chunkEnd ∧ Instr.chunkEnd ≠ .reset ∧ sM.params.schedule = .free ∧
      isNext (exec .chunkEnd sM) = true) ∧ isNext (exec .monDequeue sM) = true := by decide +kernel

/-- A CHUNK_END at the port, then a monitor step of each kind, under FREE and under REFERENCE. -/
def sP : State := { sM with port := wordBytes 0x0200000000000000 }
def sQ : State := { sP with params := { sM.params with schedule := .reference } }

/-- A run of three turns; an execution of two steps under FREE, the second MON_DEQUEUE of the chunk that
the first handed over; and one CHUNK_END under REFERENCE, which leaves no chunk in the queue. -/
theorem witness_ReferenceRunsAreFreeRuns :
    (ScheduleTurns { sQ with turns := [.command, .microOp 0x91, .microOp 0x92] } ∧
      (runSteps 3 { sQ with turns := [.command, .microOp 0x91, .microOp 0x92] }).isSome = true ∧
      sQ.params.schedule = .reference) ∧
    (sP.turns = [] ∧ (freeExecution [.command, .dequeue] sP).isSome = true ∧
      (freeExecution [.command] sP).map (fun t => t.link.queue.length) = some 1) ∧
    (freeExecution [.command] sQ).map (fun t => t.link.queue.length) = some 0 ∧
    (NotCancelledWhileRunning sQ ∧ isNext (step sQ) = true) := by
  have ht : ScheduleTurns { sQ with turns := [.command, .microOp 0x91, .microOp 0x92] } := by
    intro u hu
    simp only [List.mem_cons, List.not_mem_nil, or_false] at hu
    rcases hu with rfl | rfl | rfl
    · exact ⟨.command, rfl⟩
    · exact ⟨.dequeue, rfl⟩
    · exact ⟨.tick, rfl⟩
  exact ⟨⟨ht, by decide +kernel⟩, by decide +kernel, by decide +kernel, by decide +kernel⟩

theorem witness_AudioIgnoresTheMonitorBetweenChunks :
    IsHostCommand (.injectTransition false 0) ∧ Instr.injectTransition false 0 ≠ .chunkEnd ∧
      Instr.injectTransition false 0 ≠ .flush ∧ Instr.injectTransition false 0 ≠ .reset ∧
      isNext (exec (.injectTransition false 0) sM) = true := by decide +kernel

theorem witness_FilterStepsRun :
    let s : State := { sA with demod := { sA.demod with lpfI := [lp2, lp2] },
                               args := { sA.args with index := 1 } }
    (cascadeOf s.demod s.args.branch)[s.args.index]? = some lp2 := by decide +kernel

theorem witness_ClampedResultsStayInBounds :
    F64.one.isNaN = false ∧ F64.le F64.negOne F64.negOne = true ∧ sA.demod.f0.isFinite = true ∧
      sA.cfg.afcRangeHz.isFinite = true ∧ F64.le F64.zero sA.cfg.afcRangeHz = true := by
  decide +kernel

theorem witness_PhaseAdvanceRuns :
    (F64.add (f 0x4018CCCCCCCCCCCD) (f 0x3FB7750CB50C6E5A)).isFinite = true ∧
      (F64.add F64.zero F64.twoPi.neg).isFinite = true := by decide +kernel

/-- A monitor with a full ring of 40 zeros, and a band that holds bins. -/
def sR : State := { sM with mon := { sM.mon with ring := ⟨List.replicate 40 F64.zero, 0, 40⟩ } }

theorem witness_MonitorStepsRun :
    (sR.params.schedule = .free ∧ sR.life = .running ∧ sR.cfg.monitorEnabled = true ∧
      sR.link.cancelled = false) ∧
    sR.mon.sinceTick.toNat + [F64.one].length < 2 ^ 64 ∧
    sR.cfg.fftSize ≤ (ringChrono sR.cfg.monRingLen sR.mon.ring).length ∧
    (peakSearch sR.cfg (welchPsd sR.cfg (ringChrono sR.cfg.monRingLen sR.mon.ring))).isSome = true ∧
    (ringChrono sM.cfg.monRingLen ⟨List.replicate 40 F64.zero, 15, 15⟩).length < sM.cfg.fftSize ∧
    State.reset.life ≠ .running := by decide +kernel

theorem witness_WelchPsdAverages :
    sM.cfg.fftSize ≤ (List.replicate 16 F64.zero).length ∧ (4 : Nat) ≤ 16 / 2 := by decide +kernel

/-- An odd and an even number of values. -/
theorem witness_NoiseFloorIsTheMedian :
    mo2 ≠ [] ∧ (∀ x ∈ mo2, x.isNaN = false) ∧ mo2.length % 2 = 1 ∧
      (∀ x ∈ [F64.one, F64.two], x.isNaN = false) := by decide +kernel

/-- A band with bins (the lowest edge is bin 2) and one without. -/
theorem witness_PeakIsTheLowestMaximum :
    mo2.length = sM.cfg.fftSize / 2 + 1 ∧ (∀ x ∈ mo2, x.isNaN = false) ∧
      F64.le sM.cfg.minFreqHz (((F64.ofNat 2).mul sM.cfg.fs).div (F64.ofNat sM.cfg.fftSize)) = true ∧
      F64.le (((F64.ofNat 2).mul sM.cfg.fs).div (F64.ofNat sM.cfg.fftSize)) sM.cfg.maxFreqHz = true := by
  decide +kernel

/-- The bins 1 and N/2 - 1 have both neighbours, the bins 0 and N/2 have not. -/
theorem witness_RefineAndAcceptRun :
    (1 ≤ 1 ∧ 1 + 1 ≤ sM.cfg.fftSize / 2 ∧ 7 + 1 ≤ sM.cfg.fftSize / 2 ∧
      mo2[1 - 1]? = some (mo2[0]'(by decide)) ∧ mo2[1]?.isSome = true ∧ mo2[1 + 1]?.isSome = true) ∧
      (0 < 1 ∧ sM.cfg.fftSize / 2 < 8 + 1) := by decide +kernel

theorem witness_TriggerOperationsRun : sA.trig.total ≠ BitVec.allOnes 64 := by decide +kernel

/-- D = 2 from a space, with thresholds that change: 3 samples are below the commit, the fourth commits,
the fifth comes after it; and a mark that ends. -/
theorem witness_DebounceCommitsExactlyOnce :
    let t : Trigger := ⟨false, 0, 0, false, 0⟩
    let xs := [(F64.one, F64.half, F64.twoFifths), (F64.half, F64.twoFifths, F64.fifth),
      (F64.one, F64.half, F64.twoFifths), (F64.two, F64.one, F64.half),
      (F64.half, F64.one, F64.twoFifths)]
    let n := (trigCfg F64.two).debounceCount.units / 2 ^ 1074
    (t.pending = false ∧ (trigCfg F64.two).debounceCount.isFinite = true ∧
      (trigCfg F64.two).debounceCount.sign = false ∧ n < 2 ^ 52) ∧
    (∀ x ∈ xs.take 4, F64.lt x.2.1 x.1 = true) ∧ (xs.take 3).length ≤ n + 1 ∧
    n + 2 ≤ (xs.take 4).length ∧ (∀ x ∈ xs.drop (n + 2), F64.lt x.1 x.2.2 = false) ∧
    t.total.toNat + xs.length < 2 ^ 64 ∧ F64.lt F64.zero F64.twoFifths = true ∧
    F64.lt F64.half F64.zero = false := by decide +kernel

/-- A gap inside the glitch band, and one outside; a pending mark, and none; a buffer one below its
capacity. -/
theorem witness_MarkEndAndFlushRun :
    ((F64.lt F64.zero F64.ten = true ∧ F64.lt F64.ten sA.cfg.glitchThresholdMs = true) ∧
      F64.lt (sRoom F64.zero F64.sixty).sym.lastGapMs
        (sRoom F64.zero F64.sixty).cfg.glitchThresholdMs = false ∧ F64.lt F64.zero F64.zero = false ∧
      F64.lt F64.zero (sRoom F64.sixty F64.zero).sym.pendingMarkMs = true) ∧
    ¬ MarkEndOverflows (sRoom F64.zero F64.sixty) ∧ ¬ MarkOverflows (sRoom F64.sixty F64.zero) :=
  ⟨by decide +kernel, sRoom_markEnd, sRoom_mark _ _⟩

theorem witness_SettleMarkAndGapRun :
    ¬ MarkOverflows (sRoom F64.sixty F64.zero) ∧ ¬ GapOverflows (sRoom F64.zero F64.sixty) :=
  ⟨sRoom_mark _ _, sRoom_gap _ _⟩

/-- 100 + (10 + 70) ms of SV3: gap 10, mark 70, glitch threshold 20. -/
theorem witness_GlitchIsStitchedIntoOnePulse :
    ((symState F64.hundred F64.zero []).life = .running ∧
      (symState F64.hundred F64.zero []).sym.lastGapMs = F64.zero ∧
      (F64.ofF32 0x41200000).isFinite = true ∧ F64.lt F64.zero (F64.ofF32 0x41200000) = true ∧
      F64.lt (F64.ofF32 0x41200000) sA.cfg.glitchThresholdMs = true ∧
      (F64.ofF32 0x428C0000).isFinite = true ∧ F64.lt (F64.ofF32 0x428C0000) F64.zero = false ∧
      F64.lt sA.cfg.glitchThresholdMs (f 0x4066800000000000) = true) ∧
    ¬ PulseBufFull (symState F64.hundred F64.zero []) :=
  ⟨by decide +kernel, not_pulseBufFull (by decide +kernel)⟩

theorem witness_DecoderReadsRun :
    sA.dec.paths = Path.initial :: [] ∧
      List.lookup ['A'] [(['A'], [(['T'], F64.negOne)])] = some [(['T'], F64.negOne)] ∧
      List.lookup ['T'] [(['T'], F64.negOne)] = some F64.negOne ∧
      List.lookup (β := List (Text × F64)) [] ([] : LangModel) = none := by decide +kernel

/-- BM8 (R1105's example): K = 2 keeps M and, of the two equal scores, A, the first in table order. -/
theorem test_BM8 :
    let c : List Path := [⟨['A'], some 'A', (f 0xC02C3DD09EDCF8E4)⟩, ⟨['I'], some 'I', (f 0xC032FEE84F6E7C72)⟩,
                          ⟨['M'], some 'M', (f 0xC0227DD09EDCF8E4)⟩, ⟨['N'], some 'N', (f 0xC02C3DD09EDCF8E4)⟩]
    (run .beamPrune { sA with cfg := { sA.cfg with beamWidth := 2 }
                              args := { sA.args with cands := c } }).ret =
      .paths [⟨['M'], some 'M', (f 0xC0227DD09EDCF8E4)⟩, ⟨['A'], some 'A', (f 0xC02C3DD09EDCF8E4)⟩] := by
  decide +kernel

/-- Two candidates of one score and a third, with K = 20. -/
theorem witness_BeamPruneKeepsTheBest :
    let cs : List Path := [⟨['A'], some 'A', F64.negOne⟩, ⟨['N'], some 'N', F64.negOne⟩, Path.initial]
    cs ≠ [] ∧ (∀ p ∈ cs, p.score.isNaN = false) ∧ 1 ≤ sA.cfg.beamWidth ∧
      sA.cfg.pruneThreshold.isFinite = true ∧ F64.le F64.zero sA.cfg.pruneThreshold = true := by
  decide +kernel

/-- The empty map is valid; no map is not. -/
theorem witness_LmLoadRuns :
    (∀ row ∈ ([] : LmRecord), row.1.length ≤ 1) ∧
      ({ sA.args with lm := some [] } : Operands).lm = some [] ∧ sA.args.lm = none := by
  decide +kernel

theorem witness_PatternsAreWellFormed :
    ['-'] ≠ [] ∧ (['.', '-'] : List Char)[1]? = some '-' ∧ 0 + 1 < (['.', '-'] : List Char).length := by
  decide

/-- The same sentence; one that extends the last emission; one that does not. -/
theorem witness_EmitTextAndSymbolStageRun :
    (sA.dec.paths = Path.initial :: [] ∧ Path.initial.sentence = sA.dec.lastEmitted ∧
      (['T', ' '] : Text) = ['T'] ++ [' '] ∧ ([' '] : Text) ≠ [] ∧ ¬ (['T'] : Text) <+: ['E', 'T'] ∧
      sA.args.flag = false) ∧
    ¬ MarkEndOverflows (sRoom F64.zero F64.sixty) := ⟨by decide +kernel, sRoom_markEnd⟩

/-- A commit inside ENV_STAGE: D = 2 at the fifth sample of TR1, with fixed thresholds. -/
theorem witness_EnvStageRuns :
    ((sRoom F64.zero F64.sixty).trig.total ≠ BitVec.allOnes 64 ∧
      (trigStep (trigCfg F64.two) ⟨false, 0, 4, true, 1⟩ F64.one F64.half F64.twoFifths).toOption =
        some (⟨true, 1, 5, false, 1⟩, some ⟨false, F64.one⟩) ∧
      (trigStep (trigCfg F64.two) ⟨false, 0, 3, true, 1⟩ F64.one F64.half F64.twoFifths).toOption =
        some (⟨false, 0, 4, true, 1⟩, none)) ∧
    ¬ (EndsMark (sRoom F64.zero F64.sixty) F64.one ∧ MarkEndOverflows (sRoom F64.zero F64.sixty)) :=
  ⟨by decide +kernel, fun h => sRoom_markEnd h.2⟩

/-- The power-on state meets each invariant, and its step with a RESET word is a next state. -/
theorem witness_StepKeepsRingsAndCounts :
    RingsForm State.reset ∧ CountsBounded State.reset ∧
      isNext (step (State.reset.withFetchWord 64 0x0400000000000000)) = true := by decide +kernel
theorem witness_StepKeepsStampsOrdered :
    StampsOrdered ⟨false, 3, 5, true, 5⟩ ∧ StampsOrdered State.reset.trig ∧
      isNext (step (State.reset.withFetchWord 64 0x0400000000000000)) = true := by decide +kernel
theorem witness_StepKeepsUnitFloor :
    UnitAtLeastTen (symState F64.zero F64.zero []) ∧
      isNext (step (symState F64.zero F64.zero [])) = true := by decide +kernel
theorem witness_StepKeepsFaultCodeMeaning :
    (State.reset.faultCode ≠ 0 ↔ State.reset.life = .faulted) ∧
      (sF.faultCode ≠ 0 ↔ sF.life = .faulted) ∧ isNext (step sF) = true := by decide +kernel

/-- A beam of two paths that is ordered. -/
def sB : State :=
  { sA with dec := { sA.dec with
      paths := [⟨['T'], some 'T', F64.one.neg⟩, ⟨['E'], some 'E', F64.two.neg⟩]
      lm := [(['T'], [([' '], F64.negOne)]), (['E'], [([' '], F64.negOne)])] } }

/-- Two paths, and scores that are numbers. -/
theorem witness_StepKeepsBeamOrdered :
    (BeamOrdered sB.cfg.beamWidth sB.cfg.pruneThreshold sB.dec.paths ∧ isNext (step sB) = true) ∧
      sB.dec.paths ≠ [] ∧ 1 ≤ sB.cfg.beamWidth ∧ sB.cfg.pruneThreshold.isFinite = true ∧
      F64.le F64.zero sB.cfg.pruneThreshold = true ∧ ScoresAreNumbers sB sB.args.vec ∧
      ScoresAreNumbers sB sB.sym.pulseBuf ∧
      (∀ u, settleMark sB = .ok u → ScoresAreNumbers u u.sym.pulseBuf) := by
  have hs : ScoresAreNumbers sB [] := by
    have hp : ∀ p ∈ sB.dec.paths, p.score.isNaN = false ∧
        (p.score.add (lmGet sB.dec.lm p.lastChar ' ')).isNaN = false := by decide +kernel
    have hc : candidates sB.dec.lm (stepStats sB) [] sB.dec.paths = [] := by decide +kernel
    rintro p (h | h)
    · exact hp p h
    · rw [hc] at h
      cases h
  have hu : settleMark sB = .ok sB := by
    unfold settleMark
    exact if_neg (by decide +kernel)
  refine ⟨⟨⟨by decide +kernel, by decide +kernel, ?_, by decide +kernel⟩, by decide +kernel⟩,
    by decide, by decide +kernel, by decide +kernel, by decide +kernel, hs, hs, ?_⟩
  · intro p0 h
    have h0 : p0 = ⟨['T'], some 'T', F64.one.neg⟩ := (Option.some.inj h).symm
    rw [h0]
    decide +kernel
  · intro u h
    rw [hu, Except.ok.injEq] at h
    exact h ▸ hs

end Sys2Proof.Tests
end

/-! SUPPORT. The bounds of R13's `clamp`, and its two uses: the AFC frequency (R604) and the refinement
offset (R707). -/

namespace Sys2Proof.Proofs

open Sys2Proof Sys2Proof.Machine Sys2Proof.Laws

/-! ## clamp -/

/-- `max(v, lo)` is a number not below `lo`, and `min` with `hi` keeps it there because `lo <= hi`. -/
theorem clamp_bounds {v lo hi : F64} (hv : v.isNaN = false) (h : F64.le lo hi = true) :
    F64.le lo (F64.clamp v lo hi) = true ∧ F64.le (F64.clamp v lo hi) hi = true := by
  obtain ⟨hlo, hhi, -⟩ := le_iff.1 h
  have hmax : (v.max lo).isNaN = false ∧ F64.le lo (v.max lo) = true := by
    obtain ⟨heq, hle⟩ | ⟨heq, -⟩ := max_cases hv hlo <;> rw [heq]
    · exact ⟨hv, hle⟩
    · exact ⟨hlo, le_self hlo⟩
  unfold F64.clamp
  obtain ⟨heq, hle⟩ | ⟨heq, -⟩ := min_cases hmax.1 hhi <;> rw [heq]
  · exact ⟨hmax.2, hle⟩
  · exact ⟨h, le_self hhi⟩

/-! ## The bounds of the AFC frequency -/

theorem toInt_nonneg {r : F64} (h : F64.le F64.zero r = true) : 0 ≤ r.toInt := by
  obtain ⟨-, -, hk⟩ := le_iff.1 h
  have hz : F64.zero.toInt = 0 := by decide
  exact hz ▸ toInt_le_iff.2 hk

theorem sub_le_self {a r : F64} (ha : a.isFinite = true) (hr : r.isFinite = true)
    (h0 : F64.le F64.zero r = true) : F64.le (a.sub r) a = true := by
  have hr0 := toInt_nonneg h0
  rw [sub_finite ha hr]
  exact roundInt_le (isNaN_eq_false_of_finite ha) (by omega)

theorem self_le_add {a r : F64} (ha : a.isFinite = true) (hr : r.isFinite = true)
    (h0 : F64.le F64.zero r = true) : F64.le a (a.add r) = true := by
  have hr0 := toInt_nonneg h0
  rw [add_finite ha hr]
  exact roundInt_ge (isNaN_eq_false_of_finite ha) (by omega)

theorem exec_afcUpdate (s : State) : exec .afcUpdate s =
    .next (setRet (.num (afcUpdate s.cfg s.demod s.args.x s.args.y s.args.z).2)
      { s with demod := (afcUpdate s.cfg s.demod s.args.x s.args.y s.args.z).1 }) := rfl

/-- AFC_CORRECT keeps the frequency inside its dead-band, else it clamps a candidate around the target. -/
theorem afcCorrect_afcFreq (c : Cfg) (d : Demod) (curr : F64) :
    (afcCorrect c d curr).afcFreq = d.afcFreq ∨
      ∃ cf, (afcCorrect c d curr).afcFreq =
        F64.clamp cf (d.f0.sub c.afcRangeHz) (d.f0.add c.afcRangeHz) := by
  unfold afcCorrect
  dsimp only
  split
  · exact .inl rfl
  · exact .inr ⟨_, rfl⟩

/-- AFC_UPDATE writes the frequency through AFC_CORRECT alone. -/
theorem afcUpdate_afcFreq (c : Cfg) (d : Demod) (i q e : F64) :
    (afcUpdate c d i q e).1.afcFreq = d.afcFreq ∨
      ∃ cf, (afcUpdate c d i q e).1.afcFreq =
        F64.clamp cf (d.f0.sub c.afcRangeHz) (d.f0.add c.afcRangeHz) := by
  unfold afcUpdate
  dsimp only
  split
  · split
    · exact afcCorrect_afcFreq c { d with afcCount := _ } _
    · exact .inl rfl
  · exact .inl rfl

/-! ## The refinement offset -/

theorem exec_parabolicRefine (s : State) : exec .parabolicRefine s =
    .next { s with ret := .num (parabolicRefine s.cfg s.args.vec s.args.index) } := rfl

/-- PARABOLIC_REFINE answers 0.0 at an end bin and for a zero denominator, else a clamped quotient. -/
theorem parabolicRefine_cases (c : Cfg) (p : List F64) (kp : Nat) :
    parabolicRefine c p kp = F64.zero ∨
      ∃ v, parabolicRefine c p kp = F64.clamp v F64.half.neg F64.half := by
  unfold parabolicRefine
  split
  · exact .inl rfl
  · dsimp only
    split
    · exact .inl rfl
    · exact .inr ⟨_, rfl⟩

theorem neg_half_le_half : F64.le F64.half.neg F64.half = true := by decide

/-- Settles O29: both uses of `clamp` have their lower bound not above the upper one. -/
theorem clampedResultsStayInBounds : Obligations.ClampedResultsStayInBounds := by
  unfold Obligations.ClampedResultsStayInBounds
  refine ⟨fun v lo hi hv h => clamp_bounds hv h, fun s hf hr h0 => ?_, fun s => ?_⟩
  · have hbounds : F64.le (s.demod.f0.sub s.cfg.afcRangeHz) (s.demod.f0.add s.cfg.afcRangeHz) = true :=
      Laws.le_trans (sub_le_self hf hr h0) (self_le_add hf hr h0)
    refine ⟨_, exec_afcUpdate s, (afcUpdate_afcFreq ..).imp_right ?_⟩
    rintro ⟨cf, hcf⟩
    refine ⟨cf, hcf, fun hn => ?_⟩
    rw [setRet_demod, hcf]
    exact clamp_bounds hn hbounds
  · refine ⟨_, exec_parabolicRefine s, (parabolicRefine_cases ..).imp_right ?_⟩
    rintro ⟨v, hv⟩
    refine ⟨v, hv, fun hn => ?_⟩
    rw [hv]
    exact clamp_bounds hn neg_half_le_half

end Sys2Proof.Proofs

/-! SUPPORT. Each check of RESET as the proposition it decides, one lemma per check, and a supplied OPEN
field as its value with a default. -/

namespace Sys2Proof.Proofs

open Sys2Proof Sys2Proof.Machine Sys2Proof.Laws

/-- A supplied value with a property, whatever default stands for the value that is not supplied. -/
theorem exists_supplied_iff {α : Type} (dflt : α) {o : Option α} {P : α → Prop} :
    (∃ x, o = some x ∧ P x) ↔ o.isSome = true ∧ P (o.getD dflt) := by
  cases o <;> simp

/-! ## The checks on single fields -/

theorem posFinite_iff {v : F64} :
    posFinite v = true ↔ v.isFinite = true ∧ F64.lt F64.zero v = true := by
  simp [posFinite]

theorem nonNegFinite_iff {v : F64} :
    nonNegFinite v = true ↔ v.isFinite = true ∧ F64.le F64.zero v = true := by
  simp [nonNegFinite]

theorem filterOrderOk_iff {n : Nat} : filterOrderOk n = true ↔ n % 2 = 0 ∧ 2 ≤ n := by
  simp [filterOrderOk]

theorem two_pow_log2_eq_iff {n : Nat} : 2 ^ Nat.log2 n = n ↔ ∃ k, n = 2 ^ k := by
  constructor
  · exact fun h => ⟨_, h.symm⟩
  · rintro ⟨k, rfl⟩
    rw [Nat.log2_two_pow]

theorem fftSizeOk_iff {n : Nat} :
    fftSizeOk n = true ↔ 16 ≤ n ∧ n ≤ 65536 ∧ ∃ k, n = 2 ^ k := by
  simp only [fftSizeOk, Bool.and_eq_true, decide_eq_true_eq, two_pow_log2_eq_iff, and_assoc]

theorem sampleRateOk_iff {o : Option F64} :
    sampleRateOk o = true ↔ o.isSome = true ∧ (o.getD F64.zero).isFinite = true ∧
      F64.le F64.twoHundred (o.getD F64.zero) = true ∧
      F64.le (o.getD F64.zero) F64.maxRate = true := by
  cases o <;> simp [sampleRateOk, and_assoc]

/-- An overlap that is not supplied is N/2, which is below every N but 0 (log entry 25). -/
theorem overlapOf_lt_iff {r : CfgRecord} (h : 16 ≤ r.fftSize) :
    r.overlapOf < r.fftSize ↔ ∀ o, r.overlap = some o → o < r.fftSize := by
  unfold CfgRecord.overlapOf
  cases r.overlap with
  | none => simpa using (by omega : r.fftSize / 2 < r.fftSize)
  | some o => simp

/-! ## The language model -/

theorem lmEntryValid_iff {e : Text × F64} :
    lmEntryValid e = true ↔ e.1.length = 1 ∧ e.2.isFinite = true ∧
      F64.lt F64.lmBound e.2 = true ∧ F64.le e.2 F64.zero = true := by
  simp only [lmEntryValid, Bool.and_eq_true, beq_iff_eq, and_assoc]

theorem lmValid_iff {m : LmRecord} :
    lmValid m = true ↔ ∀ row ∈ m, row.1.length ≤ 1 ∧ ∀ e ∈ row.2, e.1.length = 1 ∧
      e.2.isFinite = true ∧ F64.lt F64.lmBound e.2 = true ∧ F64.le e.2 F64.zero = true := by
  simp only [lmValid, List.all_eq_true, Bool.and_eq_true, decide_eq_true_eq, lmEntryValid_iff]

theorem lmLoad_ok_iff {o : Option LmRecord} {m : LangModel} :
    lmLoad o = .ok m ↔ o = some m ∧ lmValid m = true := by
  cases o with
  | none => simp [lmLoad]
  | some r =>
    by_cases hv : lmValid r = true
    · simp only [lmLoad, if_pos hv, Except.ok.injEq, Option.some.injEq]
      exact ⟨fun h => ⟨h, h ▸ hv⟩, And.left⟩
    · simp only [lmLoad, if_neg hv, reduceCtorEq, Option.some.injEq, false_iff]
      exact fun ⟨h, hm⟩ => hv (h ▸ hm)

/-! ## The checks on the record -/

theorem openSupplied_iff {r : CfgRecord} :
    r.openSupplied = true ↔
      r.targetFreqHz.isSome = true ∧ r.monitorEnabled.isSome = true ∧ r.minFreqHz.isSome = true ∧
      r.maxFreqHz.isSome = true ∧ r.requiredSnr.isSome = true ∧ r.alphaBase.isSome = true ∧
      r.alphaGain.isSome = true ∧ r.alphaMax.isSome = true ∧ r.monQueueCapacity.isSome = true ∧
      r.afcEnabled.isSome = true ∧ r.athMinRange.isSome = true ∧
      r.glitchThresholdMs.isSome = true ∧ r.wpmUpdateAlpha.isSome = true ∧
      r.statsWindowSize.isSome = true := by
  simp only [CfgRecord.openSupplied, Bool.and_eq_true, and_assoc]

theorem monitorParamsOk_iff {c : Cfg} :
    monitorParamsOk c = true ↔
      (16 ≤ c.fftSize ∧ c.fftSize ≤ 65536 ∧ ∃ k, c.fftSize = 2 ^ k) ∧ c.overlap < c.fftSize ∧
      posFinite c.updateIntervalMs = true ∧
      (F64.le F64.zero c.minFreqHz = true ∧ F64.lt c.minFreqHz c.maxFreqHz = true ∧
        F64.lt c.maxFreqHz (c.fs.div F64.two) = true) ∧
      (c.requiredSnr.isFinite = true ∧ F64.le F64.one c.requiredSnr = true) ∧
      (F64.le F64.zero c.alphaBase = true ∧ F64.le F64.zero c.alphaGain = true ∧
        F64.lt F64.zero c.alphaMax = true ∧ F64.le c.alphaMax F64.one = true) ∧
      c.noiseFloorMin = F64.billionth ∧ c.peakPowerMin = F64.thousandth ∧
      1 ≤ c.monQueueCapacity := by
  simp only [monitorParamsOk, Bool.and_eq_true, decide_eq_true_eq, fftSizeOk_iff, and_assoc]

theorem demodParamsOk_iff {c : Cfg} :
    demodParamsOk c = true ↔
      (c.targetFreqHz.isFinite = true ∧ F64.lt F64.zero c.targetFreqHz = true ∧
        F64.le c.targetFreqHz (F64.nyquistFrac.mul c.fs) = true) ∧
      posFinite c.filterBwHz = true ∧ nonNegFinite c.afcGain = true ∧
      nonNegFinite c.afcGate = true ∧ 1 ≤ c.afcMinConsecutive ∧
      nonNegFinite c.afcDeadbandHz = true ∧ nonNegFinite c.afcRangeHz = true ∧
      (c.afcPolarity = F64.negOne ∨ c.afcPolarity = F64.one) ∧ c.retuneHysteresisHz = F64.five := by
  simp only [demodParamsOk, Bool.and_eq_true, Bool.or_eq_true, decide_eq_true_eq, and_assoc]

theorem thresholdParamsOk_iff {c : Cfg} :
    thresholdParamsOk c = true ↔
      posFinite c.histDownsampleRate = true ∧ posFinite c.histWindowSeconds = true ∧
      c.pctHystFrac = F64.twentieth ∧
      (F64.lt F64.zero c.athDecay = true ∧ F64.lt c.athDecay F64.one = true) ∧
      posFinite c.athMinRange = true ∧ nonNegFinite c.debounceMs = true := by
  simp only [thresholdParamsOk, Bool.and_eq_true, decide_eq_true_eq, and_assoc]

theorem symbolParamsOk_iff {c : Cfg} :
    symbolParamsOk c = true ↔
      (c.initialWpm.isFinite = true ∧ F64.lt F64.zero c.initialWpm = true ∧
        F64.le c.initialWpm F64.oneTwenty = true) ∧
      posFinite c.glitchThresholdMs = true ∧ posFinite c.charGapRatio = true ∧
      (c.wordGapRatio.isFinite = true ∧ F64.le c.charGapRatio c.wordGapRatio = true) ∧
      (c.wpmUpdateAlpha.isFinite = true ∧ F64.lt F64.zero c.wpmUpdateAlpha = true ∧
        F64.le c.wpmUpdateAlpha F64.one = true) ∧
      (4 ≤ c.statsWindowSize ∧ c.statsWindowSize ≤ 20) ∧ 1 ≤ c.beamWidth ∧
      nonNegFinite c.pruneThreshold = true := by
  simp only [symbolParamsOk, Bool.and_eq_true, decide_eq_true_eq, and_assoc]

theorem paramsOk_iff {r : CfgRecord} :
    paramsOk r = true ↔ r.openSupplied = true ∧ monitorParamsOk r.registers = true ∧
      demodParamsOk r.registers = true ∧ thresholdParamsOk r.registers = true ∧
      symbolParamsOk r.registers = true := by
  simp only [paramsOk, Bool.and_eq_true, and_assoc]

/-- RESET accepts a record exactly when none of its four checks fails (R1211). -/
theorem validate_ok_iff {r : CfgRecord} {m : LangModel} :
    validate r = .ok m ↔ filterOrderOk r.filterOrder = true ∧ sampleRateOk r.fs = true ∧
      paramsOk r = true ∧ lmLoad r.lm = .ok m := by
  unfold validate
  cases filterOrderOk r.filterOrder <;> cases sampleRateOk r.fs <;> cases paramsOk r <;> simp

/-- Settles O22: with every supplied field written as its register, the checks of RESET and the rows of R7
are the same constraints in two orders; only the row `overlap` needs another one, N >= 16. -/
theorem resetAcceptsExactlyTheConstraints : Obligations.ResetAcceptsExactlyTheConstraints := by
  unfold Obligations.ResetAcceptsExactlyTheConstraints
  intro r m
  simp only [exists_and_left, exists_supplied_iff F64.zero, exists_supplied_iff 0,
    ← posFinite_iff, ← nonNegFinite_iff, List.forall_mem_cons,
    List.not_mem_nil, false_implies, implies_true, and_true]
  rw [validate_ok_iff, filterOrderOk_iff, sampleRateOk_iff, lmLoad_ok_iff, lmValid_iff, paramsOk_iff,
    openSupplied_iff, monitorParamsOk_iff, demodParamsOk_iff, thresholdParamsOk_iff,
    symbolParamsOk_iff]
  constructor
  · rintro ⟨order, ⟨fs, fsFin, fsLo, fsHi⟩,
      ⟨⟨target, mon, minF, maxF, snr, base, gain, max, queue, afc, ath, glitch, alpha, stats⟩,
        ⟨size, overlap, interval, band, snrOk, alphaOk, noise, peak, queueOk⟩,
        ⟨targetOk, bw, afcGain, gate, consec, dead, range, polarity, retune⟩,
        ⟨rate, window, pct, decay, athOk, debounce⟩,
        ⟨wpm, glitchOk, charGap, wordGap, wpmAlpha, statsOk, beam, prune⟩⟩, lm, entries⟩
    exact ⟨order, ⟨fs, fsFin, fsLo, fsHi, ⟨target, targetOk⟩, minF, maxF, band⟩, mon, afc, size,
      (overlapOf_lt_iff size.1).1 overlap, interval, ⟨snr, snrOk⟩, ⟨base, gain, max, alphaOk⟩,
      ⟨noise, peak, retune, pct⟩, ⟨queue, queueOk⟩, bw,
      ⟨afcGain, gate, dead, range, debounce, prune⟩, consec, polarity, ⟨rate, window, charGap⟩,
      decay, ⟨ath, athOk⟩, wpm, ⟨glitch, glitchOk⟩, wordGap, ⟨alpha, wpmAlpha⟩, ⟨stats, statsOk⟩,
      beam, lm, entries⟩
  · rintro ⟨order, ⟨fs, fsFin, fsLo, fsHi, ⟨target, targetOk⟩, minF, maxF, band⟩, mon, afc, size,
      overlap, interval, ⟨snr, snrOk⟩, ⟨base, gain, max, alphaOk⟩,
      ⟨noise, peak, retune, pct⟩, ⟨queue, queueOk⟩, bw,
      ⟨afcGain, gate, dead, range, debounce, prune⟩, consec, polarity, ⟨rate, window, charGap⟩,
      decay, ⟨ath, athOk⟩, wpm, ⟨glitch, glitchOk⟩, wordGap, ⟨alpha, wpmAlpha⟩, ⟨stats, statsOk⟩,
      beam, lm, entries⟩
    exact ⟨order, ⟨fs, fsFin, fsLo, fsHi⟩,
      ⟨⟨target, mon, minF, maxF, snr, base, gain, max, queue, afc, ath, glitch, alpha, stats⟩,
        ⟨size, (overlapOf_lt_iff size.1).2 overlap, interval, band, snrOk, alphaOk, noise, peak,
          queueOk⟩,
        ⟨targetOk, bw, afcGain, gate, consec, dead, range, polarity, retune⟩,
        ⟨rate, window, pct, decay, athOk, debounce⟩,
        ⟨wpm, glitchOk, charGap, wordGap, wpmAlpha, statsOk, beam, prune⟩⟩, lm, entries⟩

end Sys2Proof.Proofs

/-! SUPPORT. What an instruction may do to the state. `Effect` says it for every instruction but
RESET, and composes; each shared operation has its effect once, along its definition. `exec_cases`
then says where `exec` ends, and `step_keeps` makes an invariant of every step from what these few
cases keep. -/

namespace Sys2Proof.Proofs

open Sys2Proof Sys2Proof.Machine Sys2Proof.Laws

/-! ## The effect of a rule -/

/-- What the rule of an instruction `i` other than RESET may do, apart from a fault and the count of
commands: the registers it keeps (R101, R103, R104, R208), and the forms it keeps (R203, R140, R122,
R132, R150). -/
structure Effect (i : Instr) (s t : State) : Prop where
  pc : t.pc = s.pc
  faultCode : t.faultCode = s.faultCode
  faulted : t.life = .faulted ↔ s.life = .faulted
  cfg : t.cfg = s.cfg
  params : t.params = s.params
  lm : i ≠ .lmLoad → t.dec.lm = s.dec.lm
  monRing : RingForm s.cfg.monRingLen s.mon.ring → RingForm t.cfg.monRingLen t.mon.ring
  hist : RingForm s.cfg.histCapacity s.thr.hist → RingForm t.cfg.histCapacity t.thr.hist
  stats : RingForm s.cfg.statsWindowSize s.sym.stats →
    RingForm t.cfg.statsWindowSize t.sym.stats
  dsCount : s.thr.dsCount < s.cfg.dsFactor → t.thr.dsCount < t.cfg.dsFactor
  afcCount : s.demod.afcCount ≤ s.cfg.afcMinConsecutive →
    t.demod.afcCount ≤ t.cfg.afcMinConsecutive
  queue : s.link.queue.length ≤ s.cfg.monQueueCapacity →
    t.link.queue.length ≤ t.cfg.monQueueCapacity
  stamps : StampsOrdered s.trig → StampsOrdered t.trig

variable {i : Instr} {s t u : State}

/-- A rule that writes nothing. An update `{ s with … }` has its effect from this one and the fields
about what it writes. -/
theorem Effect.refl (s : State) : Effect i s s where
  pc := rfl
  faultCode := rfl
  faulted := Iff.rfl
  cfg := rfl
  params := rfl
  lm _ := rfl
  monRing := id
  hist := id
  stats := id
  dsCount := id
  afcCount := id
  queue := id
  stamps := id

theorem Effect.trans (h : Effect i s t) (k : Effect i t u) : Effect i s u where
  pc := k.pc.trans h.pc
  faultCode := k.faultCode.trans h.faultCode
  faulted := k.faulted.trans h.faulted
  cfg := k.cfg.trans h.cfg
  params := k.params.trans h.params
  lm hi := (k.lm hi).trans (h.lm hi)
  monRing := k.monRing ∘ h.monRing
  hist := k.hist ∘ h.hist
  stats := k.stats ∘ h.stats
  dsCount := k.dsCount ∘ h.dsCount
  afcCount := k.afcCount ∘ h.afcCount
  queue := k.queue ∘ h.queue
  stamps := k.stamps ∘ h.stamps

theorem Effect.ringsForm (h : Effect i s t) (hs : RingsForm s) : RingsForm t := by
  obtain ⟨hmon, hhist, hstats⟩ := hs
  exact ⟨h.monRing hmon, h.hist hhist, h.stats hstats⟩

theorem Effect.countsBounded (h : Effect i s t) (hs : CountsBounded s) : CountsBounded t := by
  obtain ⟨hds, hafc, hqueue⟩ := hs
  exact ⟨h.dsCount hds, h.afcCount hafc, h.queue hqueue⟩

theorem setRet_effect (r : Ret) (s : State) : Effect i s (setRet r s) := { Effect.refl s with }

theorem respond_effect (r : Response) (s : State) : Effect i s (respond r s) := { Effect.refl s with }

/-! ## Demodulator: the AFC count (R122) -/

theorem withCascade_afcCount (d : Demod) (b : Branch) (c : List Biquad) :
    (withCascade d b c).afcCount = d.afcCount := by
  cases b <;> rfl

theorem afcCorrect_afcCount (c : Cfg) (d : Demod) (curr : F64) :
    (afcCorrect c d curr).afcCount = d.afcCount := by
  unfold afcCorrect
  dsimp only
  split <;> rfl

/-- The gate restarts the count, or AFC_UPDATE counts on up to `afc_min_consecutive` (R603). -/
theorem afcUpdate_afcCount_le (c : Cfg) (d : Demod) (i q e : F64) :
    (afcUpdate c d i q e).1.afcCount ≤ c.afcMinConsecutive := by
  unfold afcUpdate
  dsimp only
  split
  · split
    · exact (afcCorrect_afcCount ..).le.trans (Nat.min_le_right ..)
    · exact Nat.min_le_right ..
  · exact Nat.zero_le _

theorem phaseIncrement_afcCount_le {c : Cfg} {d : Demod} (i q e : F64)
    (h : d.afcCount ≤ c.afcMinConsecutive) :
    (phaseIncrement c d i q e).1.afcCount ≤ c.afcMinConsecutive := by
  unfold phaseIncrement
  split
  · exact afcUpdate_afcCount_le ..
  · exact h

theorem sdrStep_afcCount_le {c : Cfg} {d : Demod} (v : F64) (h : d.afcCount ≤ c.afcMinConsecutive) :
    (sdrStep c d v).1.afcCount ≤ c.afcMinConsecutive :=
  phaseIncrement_afcCount_le (d := { d with lpfI := _, lpfQ := _ }) _ _ _ h

theorem sdrRetune_afcCount_le (c : Cfg) (d : Demod) (f : F64) :
    (sdrRetune c d f).afcCount ≤ d.afcCount := by
  unfold sdrRetune
  split
  · exact Nat.le_refl _
  · exact Nat.zero_le _

theorem sdrRetune_effect (s : State) (f : F64) :
    Effect i s { s with demod := sdrRetune s.cfg s.demod f } :=
  { Effect.refl s with afcCount := (sdrRetune_afcCount_le ..).trans }

/-! ## Monitor and hand-off: the monitor ring and the queue (R130, R132) -/

theorem monDequeue_effect (s : State) : Effect i s (monDequeue s) := by
  unfold monDequeue
  split
  · exact Effect.refl s
  · next chunk rest hq =>
    have hqueue (h : s.link.queue.length ≤ s.cfg.monQueueCapacity) :
        rest.length ≤ s.cfg.monQueueCapacity := by
      rw [hq] at h
      exact (Nat.le_succ _).trans h
    exact { Effect.refl s with monRing := ringWrite_foldl_form chunk, queue := hqueue }

theorem acceptAndSmooth_effect (s : State) (a b f : F64) : Effect i s (acceptAndSmooth s a b f) := by
  rw [acceptAndSmooth_frame]
  exact { Effect.refl s with }

theorem monTick_effect (s : State) : Effect i s (monTick s) := by
  rw [monTick_frame]
  exact { Effect.refl s with }

/-- A chunk enters the queue only where the queue is below its capacity (R410). -/
theorem monEnqueue_effect (s : State) (c : List F64) : Effect i s (monEnqueue s c) := by
  unfold monEnqueue
  split
  · exact Effect.refl s
  · split
    · exact { Effect.refl s with }
    · next hroom => exact { Effect.refl s with queue := fun _ => by simpa using hroom }

theorem drainQueue_effect (n : Nat) (s : State) : Effect i s (drainQueue n s) := by
  induction n generalizing s with
  | zero => exact Effect.refl s
  | succ n ih => exact (monDequeue_effect s).trans (ih _)

theorem runTicks_effect (n : Nat) (s : State) : Effect i s (runTicks n s) := by
  rw [runTicks_frame]
  exact { Effect.refl s with }

theorem referenceRun_effect (s : State) : Effect i s (referenceRun s) :=
  (drainQueue_effect ..).trans (runTicks_effect ..)

theorem retuneByPoll_effect (s : State) : Effect i s (retuneByPoll s) := by
  have hpoll : Effect i s { s with link := (freqPoll s.link).1 } := { Effect.refl s with }
  unfold retuneByPoll
  dsimp only
  split
  · exact hpoll.trans (sdrRetune_effect ..)
  · exact hpoll

theorem chunkEndBody_effect (s : State) : Effect i s (chunkEndBody s) := by
  unfold chunkEndBody
  split
  · dsimp only
    set s1 := monEnqueue s s.link.chunkAcc
    have henq : Effect i s { s1 with link := { s1.link with chunkAcc := [] } } :=
      (monEnqueue_effect s s.link.chunkAcc).trans { Effect.refl s1 with }
    refine henq.trans (Effect.trans ?_ (retuneByPoll_effect _))
    split
    · exact referenceRun_effect _
    · exact Effect.refl _
  · exact Effect.refl s

/-! ## Thresholds: the history ring and its downsampling count (R140) -/

/-- HIST_PUSH restarts the count where it would reach `ds_factor`, and only then writes the ring
(R800). -/
theorem histPush_effect (s : State) (e : F64) :
    Effect i s { s with thr := (histPush s.cfg s.thr e).1 } := by
  unfold histPush
  split
  · exact { Effect.refl s with hist := ringWrite_form e, dsCount := Nat.zero_lt_of_lt }
  · next hn => exact { Effect.refl s with dsCount := fun h => Nat.lt_of_le_of_ne h hn }

theorem histSuggest_effect (s : State) : Effect i s (histSuggest s).1 := by
  rw [histSuggest_frame]
  exact { Effect.refl s with }

theorem athUpdate_effect (s : State) (e : F64) : Effect i s (athUpdate s e).1 := by
  rw [athUpdate_frame]
  exact { Effect.refl s with }

theorem setThresholds_effect (h l : F64) (s : State) : Effect i s (setThresholds h l s) :=
  { Effect.refl s with }

theorem thresholdStage_effect (s : State) (e : F64) : Effect i s (thresholdStage s e) := by
  unfold thresholdStage
  split
  · dsimp only
    split
    · exact (histPush_effect s e).trans ((histSuggest_effect _).trans (setThresholds_effect ..))
    · exact histPush_effect s e
  · exact (athUpdate_effect s e).trans (setThresholds_effect ..)

/-! ## Trigger: the order of the stamps (R150) -/

theorem debounceStep_total (c : Cfg) (t : Trigger) (raw : Bool) :
    (debounceStep c t raw).1.total = t.total := by
  unfold debounceStep
  split_ifs <;> rfl

/-- A change is stamped with the count of now, and a commit moves its stamp to the state's start. -/
theorem debounceStep_stampsOrdered (c : Cfg) {t : Trigger} (raw : Bool) (h : StampsOrdered t) :
    StampsOrdered (debounceStep c t raw).1 := by
  obtain ⟨hstart, hchange⟩ := h
  unfold debounceStep
  split
  · exact ⟨hstart, nofun⟩
  · split
    · exact ⟨hstart, fun _ => ⟨hstart, Nat.le_refl _⟩⟩
    · next hp =>
      split
      · exact ⟨(hchange (by simpa using hp)).2, nofun⟩
      · exact ⟨hstart, hchange⟩

/-- The count of samples goes up by one, for at its limit TRIG_STEP faults (R1208). -/
theorem trigStep_stampsOrdered {c : Cfg} {t u : Trigger} {e h l : F64} {ev : Option Transition}
    (hk : trigStep c t e h l = .ok (u, ev)) (ht : StampsOrdered t) : StampsOrdered u := by
  obtain ⟨hlimit, rfl, -⟩ := trigStep_ok hk
  obtain ⟨hstart, hchange⟩ := debounceStep_stampsOrdered c (schmittRaw t e h l) ht
  rw [debounceStep_total] at hstart hchange
  have hsucc : t.total.toNat ≤ (t.total + 1).toNat := (BitVec.lt_def.1 (BitVec.lt_add_one hlimit)).le
  exact ⟨hstart.trans hsucc, fun hp => (hchange hp).imp_right (·.trans hsucc)⟩

/-! ## Symbol buffer and beam: the stats window (R162) -/

theorem wpmUpdate_effect (s : State) (d : F64) : Effect i s (wpmUpdate s d) := by
  rw [wpmUpdate_frame]
  exact { Effect.refl s with stats := ringWrite_form d }

theorem pushPulse_effect {v : F64} (h : pushPulse s v = .ok t) : Effect i s t := by
  rw [pushPulse_ok h]
  exact { Effect.refl s with }

theorem settleMark_effect (h : settleMark s = .ok t) : Effect i s t := by
  unfold settleMark at h
  split at h
  · split at h
    · exact (wpmUpdate_effect ..).trans (pushPulse_effect h)
    · cases h
      rw [foldGlitch_frame]
      exact { Effect.refl s with }
  · cases h
    exact Effect.refl s

theorem beamStep_effect (s : State) (sig : List F64) : Effect i s (beamStep s sig) := by
  rw [beamStep_frame]
  exact { Effect.refl s with }

theorem decodeBuffer_effect (s : State) : Effect i s (decodeBuffer s) := by
  rw [decodeBuffer_frame]
  exact { Effect.refl s with }

theorem settleGap_effect (h : settleGap s = .ok t) : Effect i s t := by
  rw [settleGap_frame h]
  exact { Effect.refl s with }

theorem symGapEnd_effect (s : State) (d : F64) : Effect i s (symGapEnd s d) := { Effect.refl s with }

theorem stageMark_effect (s : State) (d : F64) : Effect i s (stageMark s d) := { Effect.refl s with }

theorem symMarkEnd_effect {d : F64} (h : symMarkEnd s d = .ok t) : Effect i s t := by
  unfold symMarkEnd at h
  split at h
  · cases h
    exact { Effect.refl s with }
  · split at h
    · cases h
    · next hmark =>
      split at h
      · cases h
      · next hgap =>
        cases h
        exact (settleMark_effect hmark).trans
          ((settleGap_effect hgap).trans (stageMark_effect ..))

theorem symFlush_effect (h : symFlush s = .ok t) : Effect i s t := by
  unfold symFlush at h
  split at h
  · split at h
    · cases h
    · next s1 hmark =>
      cases h
      have hclear : Effect i s1 { s1 with sym := { s1.sym with pendingMarkMs := F64.zero } } :=
        { Effect.refl s1 with }
      exact (settleMark_effect hmark).trans (hclear.trans (decodeBuffer_effect _))
  · cases h
    exact Effect.refl s

/-! ## Stages and the rules of the commands -/

theorem emit_effect (s : State) : Effect i s (emit s) :=
  { Effect.refl (i := i) s with lm := fun _ => by rw [emit_dec, emitText_frame] }

theorem symbolStage_effect {ev : Transition} (h : symbolStage s ev = .ok t) : Effect i s t := by
  unfold symbolStage at h
  split at h
  · split at h
    · cases h
    · next hmark =>
      cases h
      exact (symMarkEnd_effect hmark).trans (emit_effect _)
  · cases h
    exact (symGapEnd_effect ..).trans (emit_effect _)

theorem envStage_effect {e : F64} (h : envStage s e = .ok t) : Effect i s t := by
  unfold envStage at h
  dsimp only at h
  have hthr : Effect i s (thresholdStage s e) := thresholdStage_effect s e
  split at h
  · cases h
  · next htrig =>
    cases h
    exact hthr.trans { Effect.refl (thresholdStage s e) with stamps := trigStep_stampsOrdered htrig }
  · next tr ev htrig =>
    have hstep : Effect i (thresholdStage s e) { thresholdStage s e with trig := tr } :=
      { Effect.refl _ with stamps := trigStep_stampsOrdered htrig }
    exact hthr.trans (hstep.trans (symbolStage_effect h))

theorem sampleBody_effect {p : F32} (h : sampleBody p s = .ok t) : Effect i s t := by
  unfold sampleBody at h
  split at h
  · cases h
  · split at h
    · cases h
    · next s1 hpush =>
      have hacc : Effect i s s1 := by
        rw [pushSample_ok hpush]
        exact { Effect.refl s with }
      have hsdr : Effect i s1 { s1 with demod := (sdrStep s1.cfg s1.demod (payload p)).1 } :=
        { Effect.refl s1 with afcCount := sdrStep_afcCount_le _ }
      exact hacc.trans (hsdr.trans (envStage_effect h))

theorem injectEnvBody_effect {p : F32} (h : injectEnvBody p s = .ok t) : Effect i s t := by
  unfold injectEnvBody at h
  split at h
  · cases h
  · exact envStage_effect h

theorem injectTransitionBody_effect {f : Bool} {p : F32} (h : injectTransitionBody f p s = .ok t) :
    Effect i s t := by
  unfold injectTransitionBody at h
  split at h
  · cases h
  · exact symbolStage_effect h

theorem setTargetFreqBody_effect {p : F32} (h : setTargetFreqBody p s = .ok t) : Effect i s t := by
  rw [setTargetFreqBody_frame h]
  exact sdrRetune_effect ..

/-- FLUSH writes the lifecycle, but no FAULTED block runs it (R400). -/
theorem flushBody_effect (hl : s.life ≠ .faulted) (h : flushBody s = .ok t) : Effect i s t := by
  unfold flushBody at h
  split at h
  · cases h
  · next s1 hflush =>
    cases h
    have hsym : Effect i s (emit s1) := (symFlush_effect hflush).trans (emit_effect s1)
    have hl1 : (emit s1).life ≠ .faulted := fun hf => hl (hsym.faulted.1 hf)
    exact hsym.trans
      { Effect.refl (emit s1) with
        faulted := iff_of_false nofun hl1, queue := fun _ => Nat.zero_le _ }

/-! ## What an instruction answers -/

/-- Where an instruction but RESET ends: after its rule, with `S.pc + 1` for a host command, or in
the fault entry of R1209. A command that FAULTED refuses silently and a micro-op that faults there
end as after a rule that changes nothing. -/
def EndsIn (i : Instr) (s t : State) : Prop :=
  (∃ u, Effect i s u ∧ (IsHostCommand i ∧ t = bumpPc u ∨ ¬ IsHostCommand i ∧ t = u)) ∨
    ∃ c info, t = takeFault c info s

theorem runCommand_endsIn {op : BitVec 8} {body : State → Except FaultCode State}
    (hi : IsHostCommand i)
    (hbody : admitted s.life op = true → ∀ u, body s = .ok u → Effect i s u) :
    ∃ t, runCommand op body s = .next t ∧ EndsIn i s t := by
  obtain ⟨t, ht⟩ : ∃ t, runCommand op body s = .next t := by
    unfold runCommand
    split
    · split <;> exact ⟨_, rfl⟩
    · split <;> exact ⟨_, rfl⟩
  refine ⟨t, ht, ?_⟩
  obtain ⟨ha, u, hu, rfl⟩ | ⟨-, c, -, rfl⟩ | ⟨-, -, rfl⟩ | ⟨-, -, rfl⟩ := runCommand_cases ht
  · exact .inl ⟨u, hbody ha u hu, .inl ⟨hi, rfl⟩⟩
  · exact .inr ⟨_, _, rfl⟩
  · exact .inl ⟨s, Effect.refl s, .inl ⟨hi, rfl⟩⟩
  · exact .inr ⟨_, _, rfl⟩

theorem runMicroOp_endsIn {r : Except FaultCode State} (hi : ¬ IsHostCommand i)
    (hrule : ∀ u, r = .ok u → Effect i s u) :
    ∃ t, runMicroOp r s = .next t ∧ EndsIn i s t := by
  obtain ⟨t, ht⟩ : ∃ t, runMicroOp r s = .next t := by
    unfold runMicroOp
    split
    · exact ⟨_, rfl⟩
    · split <;> exact ⟨_, rfl⟩
  refine ⟨t, ht, ?_⟩
  obtain hok | ⟨c, -, -, rfl⟩ | ⟨c, -, -, rfl⟩ := runMicroOp_cases ht
  · exact .inl ⟨t, hrule t hok, .inr ⟨hi, rfl⟩⟩
  · exact .inl ⟨_, Effect.refl _, .inr ⟨hi, rfl⟩⟩
  · exact .inr ⟨_, _, rfl⟩

theorem Effect.endsIn (h : Effect i s u) (hi : ¬ IsHostCommand i) :
    ∃ t, (.next u : Host.Outcome State Fault Refusal) = .next t ∧ EndsIn i s t :=
  ⟨u, rfl, .inl ⟨u, h, .inr ⟨hi, rfl⟩⟩⟩

/-- FLUSH is admitted in RUNNING alone (R400). -/
theorem not_faulted_of_admitted_flush {l : Life} (h : admitted l 0x03 = true) : l ≠ .faulted := by
  rintro rfl
  cases h

/-! Five micro-ops whose rule, run by itself, is a case distinction of its own. -/

theorem execBiquadStep_endsIn (s : State) :
    ∃ t, execBiquadStep s = .next t ∧ EndsIn .biquadStep s t := by
  unfold execBiquadStep
  dsimp only
  split
  · exact Effect.endsIn { Effect.refl s with afcCount := (withCascade_afcCount ..).le.trans } nofun
  · exact (setRet_effect ..).endsIn nofun

theorem execMonDequeue_endsIn (s : State) :
    ∃ t, execMonDequeue s = .next t ∧ EndsIn .monDequeue s t := by
  unfold execMonDequeue
  split
  · exact (monDequeue_effect s).endsIn nofun
  · exact (Effect.refl s).endsIn nofun

theorem execMonTick_endsIn (s : State) : ∃ t, execMonTick s = .next t ∧ EndsIn .monTick s t := by
  unfold execMonTick
  split
  · exact (monTick_effect s).endsIn nofun
  · exact (Effect.refl s).endsIn nofun

theorem execTrigStep_endsIn (s : State) : ∃ t, execTrigStep s = .next t ∧ EndsIn .trigStep s t := by
  unfold execTrigStep
  refine runMicroOp_endsIn nofun fun u hu => ?_
  split at hu
  · next htrig =>
    cases hu
    exact { Effect.refl s with stamps := trigStep_stampsOrdered htrig }
  · cases hu

/-- LM_LOAD alone, of the rules but RESET's, writes the language model (R1108). -/
theorem execLmLoad_endsIn (s : State) : ∃ t, execLmLoad s = .next t ∧ EndsIn .lmLoad s t := by
  unfold execLmLoad
  refine runMicroOp_endsIn nofun fun u hu => ?_
  split at hu
  · cases hu
    exact { Effect.refl (i := .lmLoad) s with lm := fun h => absurd rfl h }
  · cases hu

/-- Every instruction but RESET answers a next state, in which it ends. -/
theorem exec_endsIn (hi : i ≠ .reset) (s : State) : ∃ t, exec i s = .next t ∧ EndsIn i s t := by
  cases i with
  | reset => exact absurd rfl hi
  | nop =>
    rw [exec_nop]
    exact runCommand_endsIn rfl fun _ u h => by cases h; exact Effect.refl s
  | sample p => exact runCommand_endsIn rfl fun _ u h => sampleBody_effect h
  | chunkEnd =>
    rw [exec_chunkEnd]
    exact runCommand_endsIn rfl fun _ u h => by cases h; exact chunkEndBody_effect s
  | flush =>
    exact runCommand_endsIn rfl fun ha u h =>
      flushBody_effect (not_faulted_of_admitted_flush ha) h
  | readResult =>
    rw [exec_readResult]
    exact runCommand_endsIn rfl fun _ u h => by cases h; exact respond_effect ..
  | readStatus =>
    rw [exec_readStatus]
    exact runCommand_endsIn rfl fun _ u h => by cases h; exact respond_effect ..
  | injectEnv p => exact runCommand_endsIn rfl fun _ u h => injectEnvBody_effect h
  | injectTransition f p => exact runCommand_endsIn rfl fun _ u h => injectTransitionBody_effect h
  | setTargetFreq p => exact runCommand_endsIn rfl fun _ u h => setTargetFreqBody_effect h
  | biquadStep => exact execBiquadStep_endsIn s
  | lpfCascadeStep =>
    exact Effect.endsIn { Effect.refl s with afcCount := (withCascade_afcCount ..).le.trans } nofun
  | loGen => exact (setRet_effect ..).endsIn nofun
  | iqMix => exact (setRet_effect ..).endsIn nofun
  | envelope => exact (setRet_effect ..).endsIn nofun
  | afcUpdate =>
    exact Effect.endsIn { Effect.refl s with afcCount := fun _ => afcUpdate_afcCount_le .. } nofun
  | phaseAdvance => exact Effect.endsIn { Effect.refl s with } nofun
  | sdrRetune => exact (sdrRetune_effect ..).endsIn nofun
  | sdrStep => exact Effect.endsIn { Effect.refl s with afcCount := sdrStep_afcCount_le _ } nofun
  | lpfDesign => exact Effect.endsIn { Effect.refl s with } nofun
  | monEnqueue => exact (monEnqueue_effect ..).endsIn nofun
  | monDequeue => exact execMonDequeue_endsIn s
  | monTick => exact execMonTick_endsIn s
  | welchPsd => exact (setRet_effect ..).endsIn nofun
  | noiseFloor => exact (setRet_effect ..).endsIn nofun
  | peakSearch => exact (setRet_effect ..).endsIn nofun
  | parabolicRefine => exact (setRet_effect ..).endsIn nofun
  | acceptAndSmooth => exact (acceptAndSmooth_effect ..).endsIn nofun
  | freqPoll => exact Effect.endsIn { Effect.refl s with } nofun
  | histPush => exact ((histPush_effect s s.args.x).trans (setRet_effect ..)).endsIn nofun
  | histSuggest => exact ((histSuggest_effect s).trans (setRet_effect ..)).endsIn nofun
  | pctToHl => exact (setRet_effect ..).endsIn nofun
  | athUpdate => exact ((athUpdate_effect s s.args.x).trans (setRet_effect ..)).endsIn nofun
  | schmittRaw => exact (setRet_effect ..).endsIn nofun
  | debounceStep =>
    exact Effect.endsIn { Effect.refl s with stamps := debounceStep_stampsOrdered _ _ } nofun
  | trigStep => exact execTrigStep_endsIn s
  | symGapEnd => exact (symGapEnd_effect ..).endsIn nofun
  | symMarkEnd => exact runMicroOp_endsIn nofun fun u h => symMarkEnd_effect h
  | symFlush => exact runMicroOp_endsIn nofun fun u h => symFlush_effect h
  | wpmUpdate => exact (wpmUpdate_effect ..).endsIn nofun
  | statsPush => exact Effect.endsIn { Effect.refl s with stats := ringWrite_form _ } nofun
  | statsAnalyze => exact (setRet_effect ..).endsIn nofun
  | settleMark => exact runMicroOp_endsIn nofun fun u h => settleMark_effect h
  | settleGap => exact runMicroOp_endsIn nofun fun u h => settleGap_effect h
  | beamStep => exact (beamStep_effect ..).endsIn nofun
  | emissionScore => exact (setRet_effect ..).endsIn nofun
  | lmGet => exact (setRet_effect ..).endsIn nofun
  | beamPrune => exact (setRet_effect ..).endsIn nofun
  | beamInjectSpace => exact Effect.endsIn { Effect.refl s with } nofun
  | beamGetResult => exact (setRet_effect ..).endsIn nofun
  | lmLoad => exact execLmLoad_endsIn s
  | emitText => exact (emit_effect s).endsIn nofun
  | envStage => exact runMicroOp_endsIn nofun fun u h => envStage_effect h
  | symbolStage => exact runMicroOp_endsIn nofun fun u h => symbolStage_effect h

/-! ## RESET -/

/-- Where RESET ends, its record taken: in the state constructed from the record, or in the fault
entry (R406, log entry 4). -/
def ResetEndsIn (s t : State) : Prop :=
  (∃ m, t = bumpPc (dropPartialWord (construct (nextRecord s).registers m (takeRecord s)))) ∨
    ∃ c info, t = takeFault c info (takeRecord s)

theorem execReset_endsIn (s : State) : ∃ t, exec .reset s = .next t ∧ ResetEndsIn s t := by
  have ha : admitted (takeRecord s).life 0x04 = true := admitted_reset _
  rw [exec_reset]
  cases hb : resetBody (nextRecord s) (takeRecord s) with
  | error c => exact ⟨_, runCommand_error ha hb, .inr ⟨_, _, rfl⟩⟩
  | ok u =>
    obtain ⟨m, -, rfl⟩ := resetBody_ok hb
    exact ⟨_, runCommand_ok ha hb, .inl ⟨m, rfl⟩⟩

/-- The two cases of `exec`: RESET, and an instruction with an effect. -/
theorem exec_cases (h : exec i s = .next t) :
    (i ≠ .reset ∧ EndsIn i s t) ∨ (i = .reset ∧ ResetEndsIn s t) := by
  by_cases hi : i = .reset
  · subst hi
    obtain ⟨u, hu, hcases⟩ := execReset_endsIn s
    cases hu.symm.trans h
    exact .inr ⟨rfl, hcases⟩
  · obtain ⟨u, hu, hends⟩ := exec_endsIn hi s
    cases hu.symm.trans h
    exact .inl ⟨hi, hends⟩

theorem exec_goesOn (i : Instr) (s : State) : GoesOn (exec i s) := by
  by_cases hi : i = .reset
  · subst hi
    exact (execReset_endsIn s).imp fun _ h => h.1
  · exact (exec_endsIn hi s).imp fun _ h => h.1

/-! ## Invariants of every step -/

/-- A predicate holds after every step if it is kept by the taking of input, by the count of
commands, by the fault entry and by every effect, and holds of every state that RESET constructs. -/
theorem step_keeps {P : State → Prop}
    (input : ∀ s port turns cfgIn, P s → P { s with port := port, turns := turns, cfgIn := cfgIn })
    (count : ∀ s, P s → P (bumpPc s))
    (fault : ∀ c info s, P s → P (takeFault c info s))
    (effect : ∀ i s t, Effect i s t → P s → P t)
    (reset : ∀ r m s, P (dropPartialWord (construct (CfgRecord.registers r) m s)))
    (hs : P s) (h : step s = .next t) : P t := by
  obtain ⟨port, turns, rfl | ⟨op, rfl⟩ | ⟨i, hi⟩⟩ := step_cases h
  · exact input s s.port turns s.cfgIn hs
  · have hin := input s port turns s.cfgIn hs
    unfold illegalCommand
    split
    · exact count _ hin
    · exact fault _ _ _ hin
  · have hin := input s port turns s.cfgIn hs
    obtain ⟨-, ⟨u, hu, ⟨-, rfl⟩ | ⟨-, rfl⟩⟩ | ⟨c, info, rfl⟩⟩ |
      ⟨-, ⟨m, rfl⟩ | ⟨c, info, rfl⟩⟩ := exec_cases hi
    · exact count _ (effect _ _ _ hu hin)
    · exact effect _ _ _ hu hin
    · exact fault _ _ _ hin
    · exact count _ (reset ..)
    · exact fault _ _ _ (input s port turns _ hs)

/-! ### Rings and counts -/

theorem sizeOf_pos (v : F64) : 0 < Machine.sizeOf v := Nat.le_max_left ..

/-- RESET constructs empty rings of the capacities it derives, and counts of 0 (R1301); `ds_factor`
is at least 1 (R800). -/
theorem construct_ringsAndCounts (r : CfgRecord) (m : LangModel) (s : State) :
    RingsForm (construct r.registers m s) ∧ CountsBounded (construct r.registers m s) :=
  ⟨⟨empty_form _, empty_form _, empty_form _⟩, sizeOf_pos _, Nat.zero_le _, Nat.zero_le _⟩

/-- Settles O55: each effect keeps each of the six forms, and RESET constructs a state that has
them. -/
theorem stepKeepsRingsAndCounts : Obligations.StepKeepsRingsAndCounts := by
  unfold Obligations.StepKeepsRingsAndCounts
  intro s t hrings hcounts h
  exact step_keeps (P := fun s => RingsForm s ∧ CountsBounded s)
    (input := fun _ _ _ _ => id)
    (count := fun _ => id)
    (fault := fun _ _ _ => id)
    (effect := fun i s t he => And.imp he.ringsForm he.countsBounded)
    (reset := construct_ringsAndCounts)
    ⟨hrings, hcounts⟩ h

/-! ### Trigger stamps -/

/-- Settles O56: the trigger's operations keep the order, and RESET sets all stamps to 0. -/
theorem stepKeepsStampsOrdered : Obligations.StepKeepsStampsOrdered := by
  unfold Obligations.StepKeepsStampsOrdered
  intro s t hs h
  exact step_keeps (P := fun s => StampsOrdered s.trig)
    (input := fun _ _ _ _ => id)
    (count := fun _ => id)
    (fault := fun _ _ _ => id)
    (effect := fun i s t he => he.stamps)
    (reset := fun r m s => ⟨Nat.le_refl _, nofun⟩)
    hs h

/-! ### Fault code -/

theorem code_ne_zero (c : FaultCode) : c.code ≠ 0 := by
  cases c <;> decide

/-- Settles O59: the fault entry writes FAULTED with a code that is not 0, RESET clears both, and an
effect neither writes the code nor enters or leaves FAULTED. -/
theorem stepKeepsFaultCodeMeaning : Obligations.StepKeepsFaultCodeMeaning := by
  unfold Obligations.StepKeepsFaultCodeMeaning
  intro s t hs h
  exact step_keeps (P := fun s => s.faultCode ≠ 0 ↔ s.life = .faulted)
    (input := fun _ _ _ _ => id)
    (count := fun _ => id)
    (fault := fun c _ _ _ => iff_of_true (code_ne_zero c) rfl)
    (effect := fun i s t he hs => by rw [he.faultCode, he.faulted, hs])
    (reset := fun r m s => iff_of_false (fun h => h rfl) nofun)
    hs h

/-! ## Progress -/

/-- The command position after an instruction (R101, log entries 7 and 32). -/
theorem exec_pc (h : exec i s = .next t) :
    (IsHostCommand i → t.pc = s.pc + 1) ∧
    (¬ IsHostCommand i → t.pc = s.pc ∨ (t.life = .faulted ∧ t.pc = s.pc + 1)) := by
  obtain ⟨-, ⟨u, hu, ⟨hi, rfl⟩ | ⟨hi, rfl⟩⟩ | ⟨c, info, rfl⟩⟩ |
    ⟨rfl, ⟨m, rfl⟩ | ⟨c, info, rfl⟩⟩ := exec_cases h
  · exact ⟨fun _ => by rw [bumpPc_pc, hu.pc], absurd hi⟩
  · exact ⟨(absurd · hi), fun _ => .inl hu.pc⟩
  · exact ⟨fun _ => rfl, fun _ => .inr ⟨rfl, rfl⟩⟩
  · exact ⟨fun _ => rfl, absurd rfl⟩
  · exact ⟨fun _ => rfl, absurd rfl⟩

theorem commandStep_goesOn (s : State) : GoesOn (commandStep s) := by
  unfold commandStep
  split
  · exact ⟨_, rfl⟩
  · split
    · exact exec_goesOn ..
    · exact ⟨_, rfl⟩

theorem step_goesOn (hid : ∀ id ts, s.turns = .microOp id :: ts → ∃ i, decodeMicroOp id = .ok i) :
    GoesOn (step s) := by
  unfold step
  split
  · exact commandStep_goesOn _
  · exact commandStep_goesOn _
  · next id ts hts =>
    obtain ⟨i, hi⟩ := hid id ts hts
    rw [hi]
    exact exec_goesOn ..

theorem step_of_unassigned {id : BitVec 8} {ts : List Turn} {e : DecodeError}
    (hts : s.turns = .microOp id :: ts) (he : decodeMicroOp id = .error e) :
    step s = .fault (.unassignedMicroOp id) := by
  unfold step
  rw [hts]
  dsimp only
  rw [he]

/-- Settles O7: `exec` answers a next state in both of its cases, and `exec_pc` gives its `S.pc`. -/
theorem everyStepGoesOn : Obligations.EveryStepGoesOn := by
  unfold Obligations.EveryStepGoesOn
  refine ⟨fun i s => ?_, fun s => step_goesOn, fun s id ts e => step_of_unassigned⟩
  obtain ⟨t, ht⟩ := exec_goesOn i s
  exact ⟨t, ht, exec_pc ht⟩

/-! ## What no instruction may change -/

/-- Settles O23: every effect and the fault entry keep the registers, and RESET the parameters. -/
theorem configurationIsImmutable : Obligations.ConfigurationIsImmutable := by
  unfold Obligations.ConfigurationIsImmutable
  intro i s t h
  obtain ⟨-, ⟨u, hu, ⟨-, rfl⟩ | ⟨-, rfl⟩⟩ | ⟨c, info, rfl⟩⟩ |
    ⟨rfl, ⟨m, rfl⟩ | ⟨c, info, rfl⟩⟩ := exec_cases h
  · exact ⟨fun _ => hu.cfg, fun _ => hu.lm, hu.params⟩
  · exact ⟨fun _ => hu.cfg, fun _ => hu.lm, hu.params⟩
  · exact ⟨fun _ => rfl, fun _ _ => rfl, rfl⟩
  · exact ⟨absurd rfl, absurd rfl, rfl⟩
  · exact ⟨absurd rfl, absurd rfl, rfl⟩

end Sys2Proof.Proofs

/-! SUPPORT. Decoding against encoding: the fields of a word and the word of the fields are inverse
(R300), the legal fields and the host commands correspond (R302, R305), the ids and the micro-ops too
(R303), and the bytes of a word in stream order are the word again (R210). -/

namespace Sys2Proof.Proofs

open Sys2Proof Sys2Proof.Machine Sys2Proof.Laws

/-! ## Words and their fields (R300) -/

theorem ofWord_toWord (c : CmdFields) : CmdFields.ofWord c.toWord = c := by
  obtain ⟨op, rsv, f, p⟩ := c
  simp only [CmdFields.ofWord, CmdFields.toWord, CmdFields.mk.injEq]
  refine ⟨?_, ?_, ?_, BitVec.extractLsb'_append_eq_right⟩
  · rw [BitVec.extractLsb'_append_eq_of_le (by decide),
      BitVec.extractLsb'_append_eq_of_le (by decide)]
    exact BitVec.extractLsb'_append_eq_left
  · rw [BitVec.extractLsb'_append_eq_of_le (by decide),
      BitVec.extractLsb'_append_eq_of_le (by decide)]
    exact BitVec.extractLsb'_append_eq_right
  · rw [BitVec.getLsbD_append, if_neg (by decide), BitVec.getLsbD_append, if_pos (by decide)]
    simp

theorem toWord_ofWord (w : U64) : (CmdFields.ofWord w).toWord = w := by
  have hflag : BitVec.ofBool (w.getLsbD 32) = w.extractLsb' 32 1 := by
    ext i hi
    obtain rfl : i = 0 := by omega
    simp
  simp only [CmdFields.ofWord, CmdFields.toWord]
  rw [hflag, BitVec.extractLsb'_append_extractLsb'_eq_extractLsb' (rfl : 56 = 33 + 23),
    BitVec.extractLsb'_append_extractLsb'_eq_extractLsb' (rfl : 33 = 32 + 1),
    BitVec.extractLsb'_append_extractLsb'_eq_extractLsb' (rfl : 32 = 0 + 32)]
  exact BitVec.extractLsb'_eq_self

/-! ## Fields and host commands (R302, R305) -/

theorem commandOf_of_fields {i : Instr} {c : CmdFields} (h : i.fields = some c) :
    commandOf c.op c.f c.p = some i := by
  cases i <;> cases h <;> rfl

/-- The checks of R304 pass exactly when none of the five cases of R305 holds. -/
theorem check_eq_none_iff {c : CmdFields} :
    c.check = none ↔ c.op.toNat < 0x0A ∧ c.rsv = 0 ∧ (c.f = true → opUsesFlag c.op = true) ∧
      (c.p ≠ 0 → opUsesPayload c.op = true) := by
  unfold CmdFields.check
  constructor
  · intro h
    split_ifs at h
    simp_all
  · rintro ⟨hop, hrsv, hf, hp⟩
    rw [if_neg (by omega), if_neg (by omega), if_neg (by simpa using hrsv),
      if_neg (by simpa using hf), if_neg (by simpa using hp)]

theorem eq_ofNat_of_toNat {b : BitVec 8} {n : Nat} (h : b.toNat = n) : b = BitVec.ofNat 8 n := by
  rw [← h, BitVec.ofNat_toNat, BitVec.setWidth_eq]

/-- A legal word's command stands for all of its fields: what it does not carry is zero. -/
theorem fields_of_commandOf {c : CmdFields} {i : Instr} (hc : c.check = none)
    (hi : commandOf c.op c.f c.p = some i) : i.fields = some c := by
  obtain ⟨op, rsv, f, p⟩ := c
  obtain ⟨-, rfl, hf, hp⟩ := check_eq_none_iff.1 hc
  dsimp only at hf hp hi
  unfold commandOf at hi
  split at hi <;> cases hi
  all_goals
    next hop =>
    obtain rfl := eq_ofNat_of_toNat hop
    simp_all [opUsesFlag, opUsesPayload, Instr.fields]

/-- A word decodes to a command exactly when its fields are the command's and pass the checks. -/
theorem decodeWord_ok_iff {w : U64} {i : Instr} :
    decodeWord w = .ok i ↔ i.fields = some (CmdFields.ofWord w) ∧ i.wf = true := by
  unfold decodeWord
  constructor
  · intro h
    dsimp only at h
    split at h
    · cases h
    · next hc =>
      split at h
      · next hi =>
        cases h
        have hfields := fields_of_commandOf hc hi
        exact ⟨hfields, by simp [Instr.wf, hfields, hc]⟩
      · cases h
  · rintro ⟨hfields, hwf⟩
    have hc : (CmdFields.ofWord w).check = none := by simpa [Instr.wf, hfields] using hwf
    simp only [hc, commandOf_of_fields hfields]

/-! ## Micro-op ids (R303) -/

theorem decodeMicroOp_of_fields {i : Instr} (h : i.fields = none) :
    decodeMicroOp (i.microOpId.getD 0) = .ok i := by
  cases i <;> cases h <;> rfl

theorem encode_of_decodeMicroOp {id : BitVec 8} {i : Instr} (h : decodeMicroOp id = .ok i) :
    encode i = .microOp id := by
  unfold decodeMicroOp at h
  split at h <;> cases h
  all_goals
    next hid =>
    rw [eq_ofNat_of_toNat hid]
    rfl

/-! ## The encoding as a whole -/

theorem decode_encode {i : Instr} (h : i.wf = true) : decode (encode i) = .ok i := by
  unfold encode
  split
  · next c hfields =>
    exact decodeWord_ok_iff.2 ⟨by rw [ofWord_toWord, hfields], h⟩
  · next hfields => exact decodeMicroOp_of_fields hfields

theorem encode_of_decode {e : Encoding} {i : Instr} (h : decode e = .ok i) : encode i = e := by
  cases e with
  | command w =>
    obtain ⟨hfields, -⟩ := decodeWord_ok_iff.1 h
    simp only [encode, hfields, toWord_ofWord]
  | microOp id => exact encode_of_decodeMicroOp h

/-! ## The command stream (R210, R211) -/

theorem bytesOfNat_length (n w : Nat) : (bytesOfNat n w).length = n := by
  induction n generalizing w with
  | zero => rfl
  | succ n ih => simp [bytesOfNat, ih]

theorem wordOfBytes_bytesOfNat (n w : Nat) : wordOfBytes (bytesOfNat n w) = w % 256 ^ n := by
  induction n generalizing w with
  | zero => simp [bytesOfNat, wordOfBytes, Nat.mod_one]
  | succ n ih =>
    rw [bytesOfNat, wordOfBytes, ih, BitVec.toNat_ofNat]
    exact (Nat.pow_succ' ▸ Nat.mod_mul).symm

theorem takeWord_append {bs : List Byte} (h : bs.length = 8) (rest : List Byte) :
    takeWord (bs ++ rest) = some (BitVec.ofNat 64 (wordOfBytes bs), rest) := by
  unfold takeWord
  rw [if_pos (by simp [h]), List.take_left' h, List.drop_left' h]

theorem takeWord_wordBytes (w : U64) (rest : List Byte) :
    takeWord (wordBytes w ++ rest) = some (w, rest) := by
  unfold wordBytes
  rw [takeWord_append (bytesOfNat_length ..), wordOfBytes_bytesOfNat,
    Nat.mod_eq_of_lt (show w.toNat < 256 ^ 8 from w.isLt), BitVec.ofNat_toNat, BitVec.setWidth_eq]

theorem decodeStream_encodeBytes {i : Instr} (hwf : i.wf = true) (hi : IsHostCommand i)
    (rest : List Byte) : decodeStream (encodeBytes i ++ rest) = .ok (i, rest) := by
  have hdecode := decode_encode hwf
  unfold encodeBytes
  cases he : encode i with
  | command w =>
    rw [he] at hdecode
    simp only [decodeStream, takeWord_wordBytes, show decodeWord w = .ok i from hdecode]
  | microOp id =>
    rw [he] at hdecode
    exact absurd hi (decodeMicroOp_notHost hdecode)

/-- Settles O1: the word of the fields and the fields of the word are inverse, and the checks leave a
word no field that its command does not carry. -/
theorem decodeAndEncodeAgree : Obligations.DecodeAndEncodeAgree := by
  unfold Obligations.DecodeAndEncodeAgree
  exact ⟨fun i => decode_encode, fun i => decodeStream_encodeBytes, fun e i => encode_of_decode⟩

end Sys2Proof.Proofs

/-! SUPPORT. A step along its turn and the head of the port: one lemma for each turn and for each thing
that the port can hold. -/

namespace Sys2Proof.Proofs

open Sys2Proof Sys2Proof.Machine Sys2Proof.Laws

variable {s : State} {i : Instr}

/-! ## The turn -/

theorem step_of_noTurn (h : s.turns = []) : step s = commandStep s := by
  unfold step
  rw [h]

theorem step_of_commandTurn {ts : List Turn} (h : s.turns = .command :: ts) :
    step s = commandStep { s with turns := ts } := by
  unfold step
  rw [h]

theorem step_of_microOpTurn {id : BitVec 8} {ts : List Turn} (h : s.turns = .microOp id :: ts)
    (hi : decodeMicroOp id = .ok i) : step s = exec i { s with turns := ts } := by
  unfold step
  rw [h]
  dsimp only
  rw [hi]

/-! ## The head of the port -/

theorem decodeStream_ok {bs rest : List Byte} (h : decodeStream bs = .ok (i, rest)) :
    ∃ w, takeWord bs = some (w, rest) ∧ decodeWord w = .ok i := by
  unfold decodeStream at h
  split at h
  · cases h
  · next w r htake =>
    split at h
    · next hword =>
      cases h
      exact ⟨w, htake, hword⟩
    · cases h

theorem commandStep_of_decodeStream {rest : List Byte} (h : decodeStream s.port = .ok (i, rest)) :
    commandStep s = exec i { s with port := rest } := by
  obtain ⟨w, htake, hword⟩ := decodeStream_ok h
  unfold commandStep
  simp only [htake, hword]

theorem commandStep_of_partialWord (h : s.port.length < 8) : commandStep s = .next s := by
  unfold commandStep takeWord
  rw [if_neg (Nat.not_le.2 h)]

theorem commandStep_of_illegalWord {w : U64} {rest : List Byte} {e : DecodeError}
    (htake : takeWord s.port = some (w, rest)) (hword : decodeWord w = .error e) :
    commandStep s = .next (illegalCommand (CmdFields.ofWord w).op { s with port := rest }) := by
  unfold commandStep
  simp only [htake, hword]

/-! ## Eight bytes as a word (R210) -/

theorem append_byte_toNat {n : Nat} (x : BitVec n) (b : Byte) :
    (x ++ b).toNat = b.toNat + 256 * x.toNat := by
  rw [BitVec.toNat_append, ← Nat.shiftLeft_add_eq_or_of_lt b.isLt, Nat.shiftLeft_eq]
  omega

/-- Above the last byte of a word there is the word without it. -/
theorem extractLsb'_append_byte {n : Nat} (k len : Nat) (x : BitVec n) (b : Byte) :
    (x ++ b).extractLsb' (k + 8) len = x.extractLsb' k len :=
  BitVec.extractLsb'_append_eq_of_le (Nat.le_add_left ..)

theorem ofNat_wordOfBytes (b0 b1 b2 b3 b4 b5 b6 b7 : Byte) :
    BitVec.ofNat 64 (wordOfBytes [b0, b1, b2, b3, b4, b5, b6, b7]) =
      b7 ++ b6 ++ b5 ++ b4 ++ b3 ++ b2 ++ b1 ++ b0 := by
  apply BitVec.eq_of_toNat_eq
  rw [BitVec.toNat_ofNat]
  simp only [append_byte_toNat, wordOfBytes]
  omega

theorem takeWord_eight (b0 b1 b2 b3 b4 b5 b6 b7 : Byte) (rest : List Byte) :
    takeWord (b0 :: b1 :: b2 :: b3 :: b4 :: b5 :: b6 :: b7 :: rest) =
      some (b7 ++ b6 ++ b5 ++ b4 ++ b3 ++ b2 ++ b1 ++ b0, rest) := by
  rw [← ofNat_wordOfBytes]
  exact takeWord_append (bs := [b0, b1, b2, b3, b4, b5, b6, b7]) rfl rest

/-- The opcode of a word is its last byte in stream order (R210, R300). -/
theorem ofWord_op (b0 b1 b2 b3 b4 b5 b6 b7 : Byte) :
    (CmdFields.ofWord (b7 ++ b6 ++ b5 ++ b4 ++ b3 ++ b2 ++ b1 ++ b0)).op = b7 := by
  unfold CmdFields.ofWord
  show BitVec.extractLsb' 56 8 _ = _
  rw [extractLsb'_append_byte 48, extractLsb'_append_byte 40, extractLsb'_append_byte 32,
    extractLsb'_append_byte 24, extractLsb'_append_byte 16, extractLsb'_append_byte 8,
    extractLsb'_append_byte 0]
  exact BitVec.extractLsb'_eq_self

/-- Settles O5: the turn selects the port or the micro-op, and the head of the port decodes as the
stream does. -/
theorem stepRunsTheDecodedInstruction : Obligations.StepRunsTheDecodedInstruction := by
  unfold Obligations.StepRunsTheDecodedInstruction
  intro s i
  refine ⟨fun rest hturn hport => ?_, fun ts rest hturn hport => ?_,
    fun ts id => step_of_microOpTurn⟩
  · rw [step_of_noTurn hturn, commandStep_of_decodeStream hport]
  · exact (step_of_commandTurn hturn).trans
      (commandStep_of_decodeStream (s := { s with turns := ts }) hport)

/-- Settles O6: no word is taken from fewer than 8 bytes, and a word that is taken but does not decode
has its last byte as opcode. -/
theorem stepOnWordsThatDoNotDecode : Obligations.StepOnWordsThatDoNotDecode := by
  unfold Obligations.StepOnWordsThatDoNotDecode
  refine ⟨fun s hturn hlen => ?_, fun s b0 b1 b2 b3 b4 b5 b6 b7 rest hturn hport ⟨e, he⟩ => ?_⟩
  · rw [step_of_noTurn hturn, commandStep_of_partialWord hlen]
  · have htake : takeWord s.port = some (b7 ++ b6 ++ b5 ++ b4 ++ b3 ++ b2 ++ b1 ++ b0, rest) := by
      rw [hport, takeWord_eight]
    rw [step_of_noTurn hturn, commandStep_of_illegalWord htake he, ofWord_op]
    rfl

end Sys2Proof.Proofs

/-! SUPPORT. What a monitor step and a host command leave to the other agent (R220, R212): the frames of
the operations, read at the monitor's elements. -/

namespace Sys2Proof.Proofs

open Sys2Proof Sys2Proof.Machine Sys2Proof.Laws

variable {s t : State}

/-- The fault entry, a silent refusal and the count of commands keep the monitor's elements, so a command
does what its rule does to them. -/
theorem runCommand_mon {op : BitVec 8} {body : State → Except FaultCode State}
    (hbody : ∀ u, body s = .ok u → u.mon = s.mon) (h : runCommand op body s = .next t) :
    t.mon = s.mon := by
  obtain ⟨-, u, hu, rfl⟩ | ⟨-, c, -, rfl⟩ | ⟨-, -, rfl⟩ | ⟨-, -, rfl⟩ := runCommand_cases h
  · exact hbody u hu
  · rfl
  · rfl
  · rfl

/-- Under FREE no monitor step falls inside CHUNK_END, which only hands over the chunk and polls the
slot (R212, R404). -/
theorem chunkEndBody_mon_of_free (h : s.params.schedule = .free) : (chunkEndBody s).mon = s.mon := by
  have hfree : (monEnqueue s s.link.chunkAcc).params.schedule ≠ .reference := by
    rw [monEnqueue_frame, h]
    decide
  unfold chunkEndBody
  split
  · dsimp only
    rw [if_neg hfree, retuneByPoll_frame, monEnqueue_frame]
  · rfl

theorem hostCommand_mon_of_free {i : Instr} (hi : IsHostCommand i) (hreset : i ≠ .reset)
    (hfree : s.params.schedule = .free) (h : exec i s = .next t) : t.mon = s.mon := by
  cases i with
  | nop =>
    rw [exec_nop] at h
    exact runCommand_mon (fun u hu => by cases hu; rfl) h
  | sample p => exact runCommand_mon (fun u hu => by rw [sampleBody_frame hu]) h
  | chunkEnd =>
    rw [exec_chunkEnd] at h
    exact runCommand_mon (fun u hu => by cases hu; exact chunkEndBody_mon_of_free hfree) h
  | flush => exact runCommand_mon (fun u hu => by rw [flushBody_frame hu]) h
  | reset => exact absurd rfl hreset
  | readResult =>
    rw [exec_readResult] at h
    exact runCommand_mon (fun u hu => by cases hu; rfl) h
  | readStatus =>
    rw [exec_readStatus] at h
    exact runCommand_mon (fun u hu => by cases hu; rfl) h
  | injectEnv p => exact runCommand_mon (fun u hu => by rw [injectEnvBody_frame hu]) h
  | injectTransition f p =>
    exact runCommand_mon (fun u hu => by rw [injectTransitionBody_frame hu]) h
  | setTargetFreq p => exact runCommand_mon (fun u hu => by rw [setTargetFreqBody_frame hu]) h
  | _ => cases hi

/-- The next state of MON_DEQUEUE: one dequeue where R421 enables it (log entry 8). -/
theorem exec_monDequeue_next (h : exec .monDequeue s = .next t) : t = monDequeue s ∨ t = s := by
  have ht : (if monitorEnabled s then monDequeue s else s) = t := Host.Outcome.next.inj h
  split at ht
  · exact .inl ht.symm
  · exact .inr ht.symm

/-- The next state of MON_TICK: one tick where R421 enables it (log entry 8). -/
theorem exec_monTick_next (h : exec .monTick s = .next t) : t = monTick s ∨ t = s := by
  have ht : (if monitorEnabled s then monTick s else s) = t := Host.Outcome.next.inj h
  split at ht
  · exact .inl ht.symm
  · exact .inr ht.symm

/-- Settles O24: the rules of the host commands keep the monitor's elements under FREE, and the frames of
MON_DEQUEUE and MON_TICK leave everything else but the queue and the slot. -/
theorem agentsOwnTheirState : Obligations.AgentsOwnTheirState := by
  unfold Obligations.AgentsOwnTheirState
  refine ⟨fun i s t => hostCommand_mon_of_free, ?_⟩
  rintro i s t (rfl | rfl) h
  · obtain rfl | rfl := exec_monDequeue_next h
    · rw [monDequeue_frame]
    · rfl
  · obtain rfl | rfl := exec_monTick_next h
    · rw [monTick_frame]
    · rfl

end Sys2Proof.Proofs

/-! SUPPORT. What the monitor's side of the state is to the audio agent (R220, R225): each operation that
a command runs between chunk boundaries does the same whatever that side holds, one lemma per
operation, along the definitions. -/

namespace Sys2Proof.Proofs

open Sys2Proof Sys2Proof.Machine Sys2Proof.Laws

/-- The state with another monitor, queue and slot. -/
def withMonitorSide (m : Monitor) (q : List (List F64)) (f : Option F64) (s : State) : State :=
  { s with mon := m, link := { s.link with queue := q, freqSlot := f } }

variable (m : Monitor) (q : List (List F64)) (f : Option F64) (s : State)

@[simp] theorem withMonitorSide_cfg : (withMonitorSide m q f s).cfg = s.cfg := rfl
@[simp] theorem withMonitorSide_params : (withMonitorSide m q f s).params = s.params := rfl
@[simp] theorem withMonitorSide_thr : (withMonitorSide m q f s).thr = s.thr := rfl
@[simp] theorem withMonitorSide_trig : (withMonitorSide m q f s).trig = s.trig := rfl
@[simp] theorem withMonitorSide_sym : (withMonitorSide m q f s).sym = s.sym := rfl
@[simp] theorem withMonitorSide_chunkAcc :
    (withMonitorSide m q f s).link.chunkAcc = s.link.chunkAcc := rfl

/-- An `if` whose branches commute with `g` commutes with it. -/
theorem ite_eq_apply_ite {α β : Type} {g : α → β} {c : Prop} [Decidable c] {a b : α} {a' b' : β}
    (ha : a' = g a) (hb : b' = g b) : (if c then a' else b') = g (if c then a else b) := by
  rw [apply_ite g, ha, hb]

/-! ## Thresholds -/

theorem histSuggest_withMonitorSide : histSuggest (withMonitorSide m q f s) =
    (withMonitorSide m q f (histSuggest s).1, (histSuggest s).2) := by
  unfold histSuggest
  exact Prod.ext (ite_eq_apply_ite (g := withMonitorSide m q f) rfl rfl) rfl

theorem athUpdate_withMonitorSide (e : F64) : athUpdate (withMonitorSide m q f s) e =
    (withMonitorSide m q f (athUpdate s e).1, (athUpdate s e).2) := by
  unfold athUpdate
  exact ite_eq_apply_ite (g := fun r : State × F64 × F64 => (withMonitorSide m q f r.1, r.2)) rfl rfl

theorem setThresholds_withMonitorSide (h l : F64) : setThresholds h l (withMonitorSide m q f s) =
    withMonitorSide m q f (setThresholds h l s) := rfl

/-- The update of the thresholds from the history (R403). -/
theorem setSuggested_withMonitorSide :
    setThresholds (pctToHl (histSuggest (withMonitorSide m q f s)).2).1
        (pctToHl (histSuggest (withMonitorSide m q f s)).2).2
        (histSuggest (withMonitorSide m q f s)).1 =
      withMonitorSide m q f (setThresholds (pctToHl (histSuggest s).2).1
        (pctToHl (histSuggest s).2).2 (histSuggest s).1) := by
  simp only [histSuggest_withMonitorSide, setThresholds_withMonitorSide]

theorem thresholdStage_withMonitorSide (e : F64) :
    thresholdStage (withMonitorSide m q f s) e = withMonitorSide m q f (thresholdStage s e) := by
  unfold thresholdStage
  rw [withMonitorSide_cfg]
  cases s.cfg.thresholdStrategy with
  | percentile =>
    have hupdate := setSuggested_withMonitorSide m q f { s with thr := (histPush s.cfg s.thr e).1 }
    exact ite_eq_apply_ite (g := withMonitorSide m q f) hupdate rfl
  | adaptive => simp only [athUpdate_withMonitorSide, setThresholds_withMonitorSide]

/-! ## Symbol buffer and beam -/

theorem unitFloor_withMonitorSide :
    unitFloor (withMonitorSide m q f s) = withMonitorSide m q f (unitFloor s) :=
  ite_eq_apply_ite rfl rfl

theorem wpmUpdate_withMonitorSide (d : F64) :
    wpmUpdate (withMonitorSide m q f s) d = withMonitorSide m q f (wpmUpdate s d) := by
  unfold wpmUpdate
  dsimp only
  rw [← unitFloor_withMonitorSide]
  rfl

theorem pushPulse_withMonitorSide (v : F64) : pushPulse (withMonitorSide m q f s) v =
    (pushPulse s v).map (withMonitorSide m q f) := by
  unfold pushPulse
  rw [withMonitorSide_params]
  cases s.params.pulseBufCapacity with
  | none => rfl
  | some cap => exact ite_eq_apply_ite rfl rfl

theorem settleMark_withMonitorSide : settleMark (withMonitorSide m q f s) =
    (settleMark s).map (withMonitorSide m q f) := by
  unfold settleMark
  refine ite_eq_apply_ite (ite_eq_apply_ite ?_ rfl) rfl
  rw [withMonitorSide_sym, wpmUpdate_withMonitorSide]
  exact pushPulse_withMonitorSide ..

theorem beamStep_withMonitorSide (sig : List F64) :
    beamStep (withMonitorSide m q f s) sig = withMonitorSide m q f (beamStep s sig) :=
  ite_eq_apply_ite rfl rfl

theorem decodeBuffer_withMonitorSide :
    decodeBuffer (withMonitorSide m q f s) = withMonitorSide m q f (decodeBuffer s) := by
  unfold decodeBuffer
  refine ite_eq_apply_ite rfl ?_
  rw [withMonitorSide_sym, beamStep_withMonitorSide]
  rfl

theorem settleGap_withMonitorSide : settleGap (withMonitorSide m q f s) =
    (settleGap s).map (withMonitorSide m q f) := by
  unfold settleGap
  rw [decodeBuffer_withMonitorSide]
  exact ite_eq_apply_ite (ite_eq_apply_ite rfl rfl)
    (ite_eq_apply_ite (pushPulse_withMonitorSide ..) rfl)

theorem symMarkEnd_withMonitorSide (d : F64) : symMarkEnd (withMonitorSide m q f s) d =
    (symMarkEnd s d).map (withMonitorSide m q f) := by
  unfold symMarkEnd
  refine ite_eq_apply_ite rfl ?_
  rw [settleMark_withMonitorSide]
  cases settleMark s with
  | error c => rfl
  | ok s1 =>
    simp only [Except.map, settleGap_withMonitorSide]
    cases settleGap s1 <;> rfl

/-! ## Stages -/

theorem symbolStage_withMonitorSide (ev : Transition) : symbolStage (withMonitorSide m q f s) ev =
    (symbolStage s ev).map (withMonitorSide m q f) := by
  unfold symbolStage
  refine ite_eq_apply_ite ?_ rfl
  rw [symMarkEnd_withMonitorSide]
  cases symMarkEnd s ev.durationMs <;> rfl

theorem envStage_withMonitorSide (e : F64) : envStage (withMonitorSide m q f s) e =
    (envStage s e).map (withMonitorSide m q f) := by
  unfold envStage
  simp only [thresholdStage_withMonitorSide, withMonitorSide_cfg, withMonitorSide_trig,
    withMonitorSide_thr]
  generalize thresholdStage s e = s1
  obtain c | ⟨t, none | ev⟩ := trigStep s1.cfg s1.trig e s1.thr.high s1.thr.low
  · rfl
  · rfl
  · exact symbolStage_withMonitorSide m q f { s1 with trig := t } ev

theorem pushSample_withMonitorSide (v : F64) : pushSample (withMonitorSide m q f s) v =
    (pushSample s v).map (withMonitorSide m q f) := by
  unfold pushSample
  refine ite_eq_apply_ite ?_ rfl
  rw [withMonitorSide_params]
  cases s.params.chunkCapacity with
  | none => rfl
  | some cap => exact ite_eq_apply_ite rfl rfl

/-! ## The rules of the commands -/

theorem sampleBody_withMonitorSide (p : F32) : sampleBody p (withMonitorSide m q f s) =
    (sampleBody p s).map (withMonitorSide m q f) := by
  unfold sampleBody
  refine ite_eq_apply_ite rfl ?_
  rw [pushSample_withMonitorSide]
  cases pushSample s (payload p) with
  | error c => rfl
  | ok s1 =>
    exact envStage_withMonitorSide m q f
      { s1 with demod := (sdrStep s1.cfg s1.demod (payload p)).1 } _

theorem injectEnvBody_withMonitorSide (p : F32) : injectEnvBody p (withMonitorSide m q f s) =
    (injectEnvBody p s).map (withMonitorSide m q f) := by
  unfold injectEnvBody
  exact ite_eq_apply_ite rfl (envStage_withMonitorSide ..)

theorem injectTransitionBody_withMonitorSide (b : Bool) (p : F32) :
    injectTransitionBody b p (withMonitorSide m q f s) =
      (injectTransitionBody b p s).map (withMonitorSide m q f) := by
  unfold injectTransitionBody
  exact ite_eq_apply_ite rfl (symbolStage_withMonitorSide ..)

theorem setTargetFreqBody_withMonitorSide (p : F32) :
    setTargetFreqBody p (withMonitorSide m q f s) =
      (setTargetFreqBody p s).map (withMonitorSide m q f) := by
  unfold setTargetFreqBody
  exact ite_eq_apply_ite rfl rfl

/-- Acceptance reads the lifecycle alone, and the fault entry goes back to the state before (R400,
R1209). -/
theorem runCommand_withMonitorSide {op : BitVec 8} {body : State → Except FaultCode State}
    {s t : State} (hbody : body (withMonitorSide m q f s) = (body s).map (withMonitorSide m q f))
    (h : runCommand op body s = .next t) :
    runCommand op body (withMonitorSide m q f s) = .next (withMonitorSide m q f t) := by
  obtain ⟨ha, u, hu, rfl⟩ | ⟨ha, c, hc, rfl⟩ | ⟨ha, hl, rfl⟩ | ⟨ha, hl, rfl⟩ := runCommand_cases h
  · rw [hu] at hbody
    exact runCommand_ok (s := withMonitorSide m q f s) ha hbody
  · rw [hc] at hbody
    exact runCommand_error (s := withMonitorSide m q f s) ha hbody
  · exact runCommand_refused (s := withMonitorSide m q f s) ha hl
  · exact runCommand_notAdmitted (s := withMonitorSide m q f s) ha hl

/-- Settles O25: of the host commands only CHUNK_END, FLUSH and RESET have a rule that reads or writes
the monitor's side. -/
theorem audioIgnoresTheMonitorBetweenChunks : Obligations.AudioIgnoresTheMonitorBetweenChunks := by
  unfold Obligations.AudioIgnoresTheMonitorBetweenChunks
  intro i s t m q f hi hchunk hflush hreset h
  cases i with
  | nop =>
    rw [exec_nop] at h
    exact runCommand_withMonitorSide m q f rfl h
  | sample p => exact runCommand_withMonitorSide m q f (sampleBody_withMonitorSide ..) h
  | chunkEnd => exact absurd rfl hchunk
  | flush => exact absurd rfl hflush
  | reset => exact absurd rfl hreset
  | readResult =>
    rw [exec_readResult] at h
    exact runCommand_withMonitorSide m q f rfl h
  | readStatus =>
    rw [exec_readStatus] at h
    exact runCommand_withMonitorSide m q f rfl h
  | injectEnv p => exact runCommand_withMonitorSide m q f (injectEnvBody_withMonitorSide ..) h
  | injectTransition b p =>
    exact runCommand_withMonitorSide m q f (injectTransitionBody_withMonitorSide ..) h
  | setTargetFreq p => exact runCommand_withMonitorSide m q f (setTargetFreqBody_withMonitorSide ..) h
  | _ => cases hi

end Sys2Proof.Proofs

/-! SUPPORT. The word of a command as a number: its fields by division (R300), the five cases of R305 on
them, and what a mask keeps of them (R306). -/

namespace Sys2Proof.Proofs

open Sys2Proof Sys2Proof.Machine Sys2Proof.Laws

/-! ## The fields as numbers (R300) -/

theorem ofWord_op_toNat (w : U64) : (CmdFields.ofWord w).op.toNat = w.toNat / 2 ^ 56 := by
  have hw := w.isLt
  simp only [CmdFields.ofWord, BitVec.extractLsb'_toNat, Nat.shiftRight_eq_div_pow]
  omega

theorem ofWord_rsv_toNat (w : U64) :
    (CmdFields.ofWord w).rsv.toNat = w.toNat / 2 ^ 33 % 2 ^ 23 := by
  simp only [CmdFields.ofWord, BitVec.extractLsb'_toNat, Nat.shiftRight_eq_div_pow]

theorem ofWord_f_iff (w : U64) : (CmdFields.ofWord w).f = true ↔ w.toNat / 2 ^ 32 % 2 ≠ 0 := by
  simp only [CmdFields.ofWord, BitVec.getLsbD, Nat.testBit_eq_decide_div_mod_eq, decide_eq_true_eq]
  omega

theorem ofWord_p_toNat (w : U64) : (CmdFields.ofWord w).p.toNat = w.toNat % 2 ^ 32 := by
  simp only [CmdFields.ofWord, BitVec.extractLsb'_toNat, Nat.shiftRight_zero]

theorem append_toNat {n m : Nat} (x : BitVec n) (y : BitVec m) :
    (x ++ y).toNat = x.toNat * 2 ^ m + y.toNat := by
  rw [BitVec.toNat_append, ← Nat.shiftLeft_add_eq_or_of_lt y.isLt, Nat.shiftLeft_eq]

theorem toWord_toNat (c : CmdFields) :
    c.toWord.toNat =
      c.op.toNat * 2 ^ 56 + c.rsv.toNat * 2 ^ 33 + c.f.toNat * 2 ^ 32 + c.p.toNat := by
  simp only [CmdFields.toWord, append_toNat, BitVec.toNat_ofBool]
  omega

/-! ## ILLEGAL words (R304, R305) -/

theorem opUsesFlag_iff {op : BitVec 8} : opUsesFlag op = true ↔ op.toNat = 0x08 := by
  simp [opUsesFlag, BitVec.toNat_eq]

theorem opUsesPayload_iff {op : BitVec 8} : opUsesPayload op = true ↔
    op.toNat = 0x01 ∨ op.toNat = 0x07 ∨ op.toNat = 0x08 ∨ op.toNat = 0x09 := by
  simp [opUsesPayload, BitVec.toNat_eq, or_assoc]

/-- R302 leaves no gap below 0x0A. -/
theorem exists_commandOf {op : BitVec 8} (h : op.toNat < 0x0A) (f : Bool) (p : F32) :
    ∃ i, commandOf op f p = some i := by
  unfold commandOf
  split
  case h_11 =>
    simp only [imp_false] at *
    omega
  all_goals exact ⟨_, rfl⟩

theorem decodeWord_error_iff {w : U64} :
    (∃ e, decodeWord w = .error e) ↔ (CmdFields.ofWord w).check ≠ none := by
  unfold decodeWord
  dsimp only
  cases hc : (CmdFields.ofWord w).check with
  | some e => simp
  | none =>
    obtain ⟨i, hi⟩ := exists_commandOf (check_eq_none_iff.1 hc).1 (CmdFields.ofWord w).f
      (CmdFields.ofWord w).p
    simp [hi]

/-- Settles O2: the checks of R304 in terms of the fields, each field read as a number. -/
theorem illegalWordsAreThoseEnumerated : Obligations.IllegalWordsAreThoseEnumerated := by
  unfold Obligations.IllegalWordsAreThoseEnumerated
  intro w
  have hrsv : (CmdFields.ofWord w).rsv = 0 ↔ w.toNat / 2 ^ 33 % 2 ^ 23 = 0 := by
    rw [BitVec.toNat_eq, ofWord_rsv_toNat]; rfl
  have hp : (CmdFields.ofWord w).p = 0 ↔ w.toNat % 2 ^ 32 = 0 := by
    rw [BitVec.toNat_eq, ofWord_p_toNat]; rfl
  rw [decodeWord_error_iff, Ne, check_eq_none_iff, opUsesFlag_iff, opUsesPayload_iff, hrsv, Ne, hp,
    ofWord_f_iff, ofWord_op_toNat]
  omega

/-! ## Match and mask (R306) -/

/-- A command carries only fields that its opcode uses, whatever their values. -/
theorem instr_wf (i : Instr) : i.wf = true := by
  unfold Instr.wf
  split
  · next c hc =>
    rw [Option.isNone_iff_eq_none, check_eq_none_iff]
    cases i <;> cases hc <;> simp [opUsesFlag, opUsesPayload]
  · rfl

theorem decodeWord_ok_iff_toWord {w : U64} {i : Instr} {c : CmdFields} (hi : i.fields = some c) :
    decodeWord w = .ok i ↔ w = c.toWord := by
  rw [decodeWord_ok_iff, hi, Option.some.injEq, and_iff_left (instr_wf i)]
  constructor
  · rintro rfl
    exact (toWord_ofWord w).symm
  · rintro rfl
    exact (ofWord_toWord c).symm

/-- A mask of all bits but the low `k` keeps the word down to a multiple of `2 ^ k`. -/
theorem and_highMask_eq_iff (k : Nat) (w v : U64) :
    w &&& BitVec.allOnes 64 <<< k = v ↔ w.toNat / 2 ^ k * 2 ^ k = v.toNat := by
  have hlt : w.toNat / 2 ^ k * 2 ^ k < 2 ^ 64 := (Nat.div_mul_le_self ..).trans_lt w.isLt
  rw [← BitVec.shiftLeft_ushiftRight, BitVec.toNat_eq, BitVec.toNat_shiftLeft,
    BitVec.toNat_ushiftRight, Nat.shiftRight_eq_div_pow, Nat.shiftLeft_eq, Nat.mod_eq_of_lt hlt]

section Rows

variable {w v : U64} {i : Instr} {op : BitVec 8}

/-- A row of R306 without operands. -/
theorem decodeWord_iff_match (hi : i.fields = some ⟨op, 0, false, 0⟩)
    (hv : v.toNat = op.toNat * 2 ^ 56) :
    decodeWord w = .ok i ↔ w &&& 0xFFFFFFFFFFFFFFFF#64 = v := by
  rw [decodeWord_ok_iff_toWord hi, BitVec.toNat_eq, toWord_toNat,
    show 0xFFFFFFFFFFFFFFFF#64 = BitVec.allOnes 64 <<< 0 from rfl, and_highMask_eq_iff, hv]
  simp

/-- A row of R306 with the operand `P`. -/
theorem decodeWord_iff_match_payload {p : F32} (hi : i.fields = some ⟨op, 0, false, p⟩)
    (hv : v.toNat = op.toNat * 2 ^ 56) :
    decodeWord w = .ok i ↔ w &&& 0xFFFFFFFF00000000#64 = v ∧ p.toNat = w.toNat % 2 ^ 32 := by
  have hp := p.isLt
  rw [decodeWord_ok_iff_toWord hi, BitVec.toNat_eq, toWord_toNat,
    show 0xFFFFFFFF00000000#64 = BitVec.allOnes 64 <<< 32 from rfl, and_highMask_eq_iff, hv]
  simp only [BitVec.ofNat_eq_ofNat, BitVec.toNat_ofNat, Nat.zero_mod, Bool.toNat_false]
  omega

/-- The row of R306 with both operands. -/
theorem decodeWord_iff_match_flag_payload {f : Bool} {p : F32} (hi : i.fields = some ⟨op, 0, f, p⟩)
    (hv : v.toNat = op.toNat * 2 ^ 56) :
    decodeWord w = .ok i ↔ w &&& 0xFFFFFFFE00000000#64 = v ∧ p.toNat = w.toNat % 2 ^ 32 ∧
      f.toNat = w.toNat / 2 ^ 32 % 2 := by
  have hp := p.isLt
  have hf := f.toNat_lt
  rw [decodeWord_ok_iff_toWord hi, BitVec.toNat_eq, toWord_toNat,
    show 0xFFFFFFFE00000000#64 = BitVec.allOnes 64 <<< 33 from rfl, and_highMask_eq_iff, hv]
  simp only [BitVec.ofNat_eq_ofNat, BitVec.toNat_ofNat, Nat.zero_mod]
  omega

end Rows

/-- Settles O3: the rows of R306 are of three forms, by the operands that the command carries. -/
theorem matchAndMaskSelectTheCommand : Obligations.MatchAndMaskSelectTheCommand := by
  unfold Obligations.MatchAndMaskSelectTheCommand
  intro w
  exact ⟨decodeWord_iff_match rfl rfl, fun p => decodeWord_iff_match_payload rfl rfl,
    decodeWord_iff_match rfl rfl, decodeWord_iff_match rfl rfl, decodeWord_iff_match rfl rfl,
    decodeWord_iff_match rfl rfl, decodeWord_iff_match rfl rfl,
    fun p => decodeWord_iff_match_payload rfl rfl,
    fun f p => decodeWord_iff_match_flag_payload rfl rfl,
    fun p => decodeWord_iff_match_payload rfl rfl⟩

/-! ## Words of the opcode table (R302, R303) -/

theorem takeWord_bytesOfNat (n : Nat) : takeWord (bytesOfNat 8 n) = some (BitVec.ofNat 64 n, []) := by
  rw [← List.append_nil (bytesOfNat 8 n), takeWord_append (bytesOfNat_length ..),
    wordOfBytes_bytesOfNat]
  exact congrArg (fun x => some (x, [])) (BitVec.eq_of_toNat_eq (by simp))

/-- A row of 64 bits is read as a command word. -/
theorem decodeTableWord_command (n : Nat) :
    decodeTableWord 64 n = (decodeWord (BitVec.ofNat 64 n)).toOption := by
  simp only [decodeTableWord, decodeStream, takeWord_bytesOfNat]
  cases decodeWord (BitVec.ofNat 64 n) <;> rfl

/-- A row of 8 bits is read as a micro-op id. -/
theorem decodeTableWord_microOp (n : Nat) :
    decodeTableWord 8 n = (decodeMicroOp (BitVec.ofNat 8 n)).toOption := by
  simp only [decodeTableWord]
  cases decodeMicroOp (BitVec.ofNat 8 n) <;> rfl

/-- Settles O4: a row's bits are read as a word or as an id, and each of these decodes by its table. -/
theorem specWordsDecode : Obligations.SpecWordsDecode := by
  unfold Obligations.SpecWordsDecode
  simp only [decodeTableWord_command, decodeTableWord_microOp]
  decide

end Sys2Proof.Proofs

/-! SUPPORT. The turns that are laid down are the model's own (log entry 9): no operation of a host command
or of the monitor reads or writes them, one lemma per operation, along the definitions. -/

namespace Sys2Proof.Proofs

open Sys2Proof Sys2Proof.Machine Sys2Proof.Laws

/-- The state with other turns laid down. -/
def withTurns (ts : List Turn) (s : State) : State := { s with turns := ts }

variable (ts : List Turn) (s : State)

@[simp] theorem withTurns_turns : (withTurns ts s).turns = ts := rfl
@[simp] theorem withTurns_cfg : (withTurns ts s).cfg = s.cfg := rfl
@[simp] theorem withTurns_params : (withTurns ts s).params = s.params := rfl
@[simp] theorem withTurns_port : (withTurns ts s).port = s.port := rfl
@[simp] theorem withTurns_link : (withTurns ts s).link = s.link := rfl
@[simp] theorem withTurns_mon : (withTurns ts s).mon = s.mon := rfl
@[simp] theorem withTurns_thr : (withTurns ts s).thr = s.thr := rfl
@[simp] theorem withTurns_trig : (withTurns ts s).trig = s.trig := rfl
@[simp] theorem withTurns_sym : (withTurns ts s).sym = s.sym := rfl

/-- Laying down the turns that are there already changes nothing. -/
theorem withTurns_self {ts : List Turn} {s : State} (h : s.turns = ts) : withTurns ts s = s := by
  rw [← h]
  rfl

/-! ## Thresholds -/

theorem histSuggest_withTurns :
    histSuggest (withTurns ts s) = (withTurns ts (histSuggest s).1, (histSuggest s).2) := by
  unfold histSuggest
  exact Prod.ext (ite_eq_apply_ite (g := withTurns ts) rfl rfl) rfl

theorem athUpdate_withTurns (e : F64) :
    athUpdate (withTurns ts s) e = (withTurns ts (athUpdate s e).1, (athUpdate s e).2) := by
  unfold athUpdate
  exact ite_eq_apply_ite (g := fun r : State × F64 × F64 => (withTurns ts r.1, r.2)) rfl rfl

/-- The update of the thresholds from the history (R403). -/
theorem setSuggested_withTurns :
    setThresholds (pctToHl (histSuggest (withTurns ts s)).2).1
        (pctToHl (histSuggest (withTurns ts s)).2).2 (histSuggest (withTurns ts s)).1 =
      withTurns ts (setThresholds (pctToHl (histSuggest s).2).1 (pctToHl (histSuggest s).2).2
        (histSuggest s).1) := by
  rw [histSuggest_withTurns]
  rfl

theorem thresholdStage_withTurns (e : F64) :
    thresholdStage (withTurns ts s) e = withTurns ts (thresholdStage s e) := by
  unfold thresholdStage
  rw [withTurns_cfg]
  cases s.cfg.thresholdStrategy with
  | percentile =>
    have hupdate := setSuggested_withTurns ts { s with thr := (histPush s.cfg s.thr e).1 }
    exact ite_eq_apply_ite (g := withTurns ts) hupdate rfl
  | adaptive =>
    rw [athUpdate_withTurns]
    rfl

/-! ## Symbol buffer and beam -/

theorem unitFloor_withTurns : unitFloor (withTurns ts s) = withTurns ts (unitFloor s) :=
  ite_eq_apply_ite rfl rfl

theorem wpmUpdate_withTurns (d : F64) :
    wpmUpdate (withTurns ts s) d = withTurns ts (wpmUpdate s d) := by
  unfold wpmUpdate
  dsimp only
  rw [← unitFloor_withTurns]
  rfl

theorem pushPulse_withTurns (v : F64) :
    pushPulse (withTurns ts s) v = (pushPulse s v).map (withTurns ts) := by
  unfold pushPulse
  rw [withTurns_params]
  cases s.params.pulseBufCapacity with
  | none => rfl
  | some cap => exact ite_eq_apply_ite rfl rfl

theorem settleMark_withTurns :
    settleMark (withTurns ts s) = (settleMark s).map (withTurns ts) := by
  unfold settleMark
  refine ite_eq_apply_ite (ite_eq_apply_ite ?_ rfl) rfl
  rw [withTurns_sym, wpmUpdate_withTurns]
  exact pushPulse_withTurns ..

theorem beamStep_withTurns (sig : List F64) :
    beamStep (withTurns ts s) sig = withTurns ts (beamStep s sig) :=
  ite_eq_apply_ite rfl rfl

theorem decodeBuffer_withTurns : decodeBuffer (withTurns ts s) = withTurns ts (decodeBuffer s) := by
  unfold decodeBuffer
  refine ite_eq_apply_ite rfl ?_
  rw [withTurns_sym, beamStep_withTurns]
  rfl

theorem settleGap_withTurns : settleGap (withTurns ts s) = (settleGap s).map (withTurns ts) := by
  unfold settleGap
  rw [decodeBuffer_withTurns]
  exact ite_eq_apply_ite (ite_eq_apply_ite rfl rfl)
    (ite_eq_apply_ite (pushPulse_withTurns ..) rfl)

theorem symMarkEnd_withTurns (d : F64) :
    symMarkEnd (withTurns ts s) d = (symMarkEnd s d).map (withTurns ts) := by
  unfold symMarkEnd
  refine ite_eq_apply_ite rfl ?_
  rw [settleMark_withTurns]
  cases settleMark s with
  | error c => rfl
  | ok s1 =>
    simp only [Except.map, settleGap_withTurns]
    cases settleGap s1 <;> rfl

theorem symFlush_withTurns : symFlush (withTurns ts s) = (symFlush s).map (withTurns ts) := by
  unfold symFlush
  refine ite_eq_apply_ite ?_ rfl
  rw [settleMark_withTurns]
  cases settleMark s with
  | error c => rfl
  | ok s1 =>
    exact congrArg Except.ok
      (decodeBuffer_withTurns ts { s1 with sym := { s1.sym with pendingMarkMs := F64.zero } })

/-! ## Stages -/

theorem symbolStage_withTurns (ev : Transition) :
    symbolStage (withTurns ts s) ev = (symbolStage s ev).map (withTurns ts) := by
  unfold symbolStage
  refine ite_eq_apply_ite ?_ rfl
  rw [symMarkEnd_withTurns]
  cases symMarkEnd s ev.durationMs <;> rfl

theorem envStage_withTurns (e : F64) :
    envStage (withTurns ts s) e = (envStage s e).map (withTurns ts) := by
  unfold envStage
  simp only [thresholdStage_withTurns, withTurns_cfg, withTurns_trig, withTurns_thr]
  generalize thresholdStage s e = s1
  obtain c | ⟨t, none | ev⟩ := trigStep s1.cfg s1.trig e s1.thr.high s1.thr.low
  · rfl
  · rfl
  · exact symbolStage_withTurns ts { s1 with trig := t } ev

theorem pushSample_withTurns (v : F64) :
    pushSample (withTurns ts s) v = (pushSample s v).map (withTurns ts) := by
  unfold pushSample
  refine ite_eq_apply_ite ?_ rfl
  rw [withTurns_params]
  cases s.params.chunkCapacity with
  | none => rfl
  | some cap => exact ite_eq_apply_ite rfl rfl

/-! ## Monitor -/

theorem monEnqueue_withTurns (c : List F64) :
    monEnqueue (withTurns ts s) c = withTurns ts (monEnqueue s c) :=
  ite_eq_apply_ite rfl (ite_eq_apply_ite rfl rfl)

theorem monDequeue_withTurns : monDequeue (withTurns ts s) = withTurns ts (monDequeue s) := by
  unfold monDequeue
  rw [withTurns_link]
  cases s.link.queue <;> rfl

theorem acceptAndSmooth_withTurns (a b f : F64) :
    acceptAndSmooth (withTurns ts s) a b f = withTurns ts (acceptAndSmooth s a b f) :=
  ite_eq_apply_ite rfl rfl

theorem monTick_withTurns : monTick (withTurns ts s) = withTurns ts (monTick s) := by
  unfold monTick
  simp only [withTurns_cfg, withTurns_mon]
  refine ite_eq_apply_ite rfl ?_
  cases peakSearch s.cfg (welchPsd s.cfg (ringChrono s.cfg.monRingLen s.mon.ring)) with
  | none => rfl
  | some kp => exact acceptAndSmooth_withTurns ..

theorem drainQueue_withTurns (n : Nat) :
    drainQueue n (withTurns ts s) = withTurns ts (drainQueue n s) := by
  induction n generalizing s with
  | zero => rfl
  | succ n ih => rw [drainQueue, monDequeue_withTurns, ih, drainQueue]

theorem runTicks_withTurns (n : Nat) :
    runTicks n (withTurns ts s) = withTurns ts (runTicks n s) := by
  induction n generalizing s with
  | zero => rfl
  | succ n ih =>
    have htick : monTick (chargeTick (withTurns ts s)) = withTurns ts (monTick (chargeTick s)) :=
      monTick_withTurns ts (chargeTick s)
    rw [runTicks, htick, ih, runTicks]

theorem referenceRun_withTurns : referenceRun (withTurns ts s) = withTurns ts (referenceRun s) := by
  unfold referenceRun
  rw [withTurns_link, drainQueue_withTurns]
  exact runTicks_withTurns ..

theorem retuneByPoll_withTurns : retuneByPoll (withTurns ts s) = withTurns ts (retuneByPoll s) := by
  unfold retuneByPoll freqPoll
  rw [withTurns_link]
  cases s.link.freqSlot <;> rfl

/-! ## The rules of the commands -/

theorem sampleBody_withTurns (p : F32) :
    sampleBody p (withTurns ts s) = (sampleBody p s).map (withTurns ts) := by
  unfold sampleBody
  refine ite_eq_apply_ite rfl ?_
  rw [pushSample_withTurns]
  cases pushSample s (payload p) with
  | error c => rfl
  | ok s1 =>
    exact envStage_withTurns ts { s1 with demod := (sdrStep s1.cfg s1.demod (payload p)).1 } _

theorem chunkEndBody_withTurns : chunkEndBody (withTurns ts s) = withTurns ts (chunkEndBody s) := by
  unfold chunkEndBody
  refine ite_eq_apply_ite ?_ rfl
  dsimp only
  rw [withTurns_link, monEnqueue_withTurns, ← retuneByPoll_withTurns]
  exact congrArg retuneByPoll (ite_eq_apply_ite (referenceRun_withTurns ts
    { monEnqueue s s.link.chunkAcc with
      link := { (monEnqueue s s.link.chunkAcc).link with chunkAcc := [] } }) rfl)

theorem flushBody_withTurns :
    flushBody (withTurns ts s) = (flushBody s).map (withTurns ts) := by
  unfold flushBody
  rw [symFlush_withTurns]
  cases symFlush s <;> rfl

theorem resetBody_withTurns (r : CfgRecord) :
    resetBody r (withTurns ts s) = (resetBody r s).map (withTurns ts) := by
  unfold resetBody
  cases validate r <;> rfl

theorem injectEnvBody_withTurns (p : F32) :
    injectEnvBody p (withTurns ts s) = (injectEnvBody p s).map (withTurns ts) := by
  unfold injectEnvBody
  exact ite_eq_apply_ite rfl (envStage_withTurns ..)

theorem injectTransitionBody_withTurns (f : Bool) (p : F32) :
    injectTransitionBody f p (withTurns ts s) = (injectTransitionBody f p s).map (withTurns ts) := by
  unfold injectTransitionBody
  exact ite_eq_apply_ite rfl (symbolStage_withTurns ..)

theorem setTargetFreqBody_withTurns (p : F32) :
    setTargetFreqBody p (withTurns ts s) = (setTargetFreqBody p s).map (withTurns ts) := by
  unfold setTargetFreqBody
  exact ite_eq_apply_ite rfl rfl

/-! ## The commands and the step -/

variable {ts s} {i : Instr} {t : State}

/-- Acceptance reads the lifecycle alone, and the fault entry goes back to the state before (R400,
R1209). -/
theorem runCommand_withTurns {op : BitVec 8} {body : State → Except FaultCode State}
    (hbody : body (withTurns ts s) = (body s).map (withTurns ts))
    (h : runCommand op body s = .next t) :
    runCommand op body (withTurns ts s) = .next (withTurns ts t) := by
  obtain ⟨ha, u, hu, rfl⟩ | ⟨ha, c, hc, rfl⟩ | ⟨ha, hl, rfl⟩ | ⟨ha, hl, rfl⟩ := runCommand_cases h
  · rw [hu] at hbody
    exact runCommand_ok (s := withTurns ts s) ha hbody
  · rw [hc] at hbody
    exact runCommand_error (s := withTurns ts s) ha hbody
  · exact runCommand_refused (s := withTurns ts s) ha hl
  · exact runCommand_notAdmitted (s := withTurns ts s) ha hl

theorem exec_withTurns (hi : IsHostCommand i) (h : exec i s = .next t) :
    exec i (withTurns ts s) = .next (withTurns ts t) := by
  cases i with
  | nop =>
    rw [exec_nop] at h
    exact runCommand_withTurns rfl h
  | sample p => exact runCommand_withTurns (sampleBody_withTurns ..) h
  | chunkEnd =>
    rw [exec_chunkEnd] at h
    exact runCommand_withTurns (body := fun u => .ok (chunkEndBody u))
      (congrArg Except.ok (chunkEndBody_withTurns ts s)) h
  | flush => exact runCommand_withTurns (flushBody_withTurns ..) h
  | reset => exact runCommand_withTurns (s := takeRecord s) (resetBody_withTurns ..) h
  | readResult =>
    rw [exec_readResult] at h
    exact runCommand_withTurns rfl h
  | readStatus =>
    rw [exec_readStatus] at h
    exact runCommand_withTurns rfl h
  | injectEnv p => exact runCommand_withTurns (injectEnvBody_withTurns ..) h
  | injectTransition f p => exact runCommand_withTurns (injectTransitionBody_withTurns ..) h
  | setTargetFreq p => exact runCommand_withTurns (setTargetFreqBody_withTurns ..) h
  | _ => cases hi

theorem illegalCommand_withTurns (op : BitVec 8) (ts : List Turn) (s : State) :
    illegalCommand op (withTurns ts s) = withTurns ts (illegalCommand op s) :=
  ite_eq_apply_ite rfl rfl

theorem isHostCommand_of_fields {c : CmdFields} (h : i.fields = some c) : IsHostCommand i := by
  cases i <;> cases h <;> rfl

/-- A host command does the same whatever turns are laid down, and leaves them as they are. -/
theorem commandStep_withTurns (h : commandStep s = .next t) :
    commandStep (withTurns ts s) = .next (withTurns ts t) := by
  unfold commandStep at h ⊢
  rw [withTurns_port]
  split at h
  · cases h
    rfl
  · next w rest htake =>
    split at h
    · next i hword =>
      exact exec_withTurns (isHostCommand_of_fields (decodeWord_ok_iff.1 hword).1) h
    · cases h
      exact congrArg Host.Outcome.next (illegalCommand_withTurns _ ts { s with port := rest })

end Sys2Proof.Proofs

/-! SUPPORT. The lifecycle: which commands it admits (R400), what an instruction leaves of the lifecycle,
the fault registers and the cancellation (R104, R405, R1209, R1210), and a step in FAULTED. -/

namespace Sys2Proof.Proofs

open Sys2Proof Sys2Proof.Machine Sys2Proof.Laws

variable {i : Instr} {c : CmdFields} {s t u : State}

/-! ## Acceptance by the command's opcode (R400) -/

theorem fields_of_isHostCommand (hi : IsHostCommand i) : ∃ c, i.fields = some c := by
  cases i <;> cases hi <;> exact ⟨_, rfl⟩

/-- A command but RESET is its rule under the acceptance of its opcode. -/
theorem exec_eq_runCommand (h : i.fields = some c) (hreset : i ≠ .reset) (s : State) :
    ∃ body, exec i s = runCommand c.op body s := by
  cases i <;> cases h
  case nop => exact ⟨_, exec_nop s⟩
  case sample p => exact ⟨_, exec_sample p s⟩
  case chunkEnd => exact ⟨_, exec_chunkEnd s⟩
  case flush => exact ⟨_, exec_flush s⟩
  case reset => exact absurd rfl hreset
  case readResult => exact ⟨_, exec_readResult s⟩
  case readStatus => exact ⟨_, exec_readStatus s⟩
  case injectEnv p => exact ⟨_, exec_injectEnv p s⟩
  case injectTransition f p => exact ⟨_, exec_injectTransition f p s⟩
  case setTargetFreq p => exact ⟨_, exec_setTargetFreq p s⟩

/-- UNCONFIGURED admits NOP, RESET and READ_STATUS alone; FAULTED admits the same three. -/
theorem not_admitted_unconfigured (h : i.fields = some c) (hnop : i ≠ .nop) (hreset : i ≠ .reset)
    (hstatus : i ≠ .readStatus) : admitted .unconfigured c.op = false := by
  cases i <;> cases h
  case nop => exact absurd rfl hnop
  case reset => exact absurd rfl hreset
  case readStatus => exact absurd rfl hstatus
  all_goals rfl

/-- FLUSHED admits READ_RESULT too. -/
theorem not_admitted_flushed (h : i.fields = some c) (hnop : i ≠ .nop) (hreset : i ≠ .reset)
    (hresult : i ≠ .readResult) (hstatus : i ≠ .readStatus) : admitted .flushed c.op = false := by
  cases i <;> cases h
  case nop => exact absurd rfl hnop
  case reset => exact absurd rfl hreset
  case readResult => exact absurd rfl hresult
  case readStatus => exact absurd rfl hstatus
  all_goals rfl

/-- Settles O9: acceptance answers CMD_STATE where the lifecycle does not admit the opcode. -/
theorem commandNotAdmittedFaults : Obligations.CommandNotAdmittedFaults := by
  unfold Obligations.CommandNotAdmittedFaults
  rintro i c s hc (⟨hl, hnop, hreset, hstatus⟩ | ⟨hl, hnop, hreset, hresult, hstatus⟩)
  · obtain ⟨body, hbody⟩ := exec_eq_runCommand hc hreset s
    rw [hbody, runCommand_notAdmitted (hl ▸ not_admitted_unconfigured hc hnop hreset hstatus)
      (by rw [hl]; decide)]
    rfl
  · obtain ⟨body, hbody⟩ := exec_eq_runCommand hc hreset s
    rw [hbody, runCommand_notAdmitted (hl ▸ not_admitted_flushed hc hnop hreset hresult hstatus)
      (by rw [hl]; decide)]
    rfl

/-- NOP is admitted in every state. -/
theorem exec_nop_eq (s : State) : exec .nop s = .next (bumpPc s) := by
  rw [exec_nop]
  exact runCommand_ok (admitted_nop _) rfl

/-- READ_STATUS is admitted in every state. -/
theorem exec_readStatus_eq (s : State) :
    exec .readStatus s = .next (bumpPc (respond (.status (statusWords s)) s)) := by
  rw [exec_readStatus]
  exact runCommand_ok (admitted_readStatus _) rfl

/-- FAULTED refuses every other command silently. -/
theorem exec_of_faulted (hi : IsHostCommand i) (hreset : i ≠ .reset) (hstatus : i ≠ .readStatus)
    (hl : s.life = .faulted) : exec i s = .next (bumpPc s) := by
  by_cases hnop : i = .nop
  · rw [hnop, exec_nop_eq]
  · obtain ⟨c, hc⟩ := fields_of_isHostCommand hi
    obtain ⟨body, hbody⟩ := exec_eq_runCommand hc hreset s
    rw [hbody]
    exact runCommand_refused (hl ▸ not_admitted_unconfigured hc hnop hreset hstatus) hl

/-! ## What an instruction leaves of the lifecycle -/

/-- The lifecycle, the fault registers and the cancellation are as they were. -/
structure KeepsLifecycle (s t : State) : Prop where
  life : t.life = s.life
  faultCode : t.faultCode = s.faultCode
  faultInfo : t.faultInfo = s.faultInfo
  cancelled : t.link.cancelled = s.link.cancelled

/-- Where an instruction but RESET leaves the lifecycle: as it was, or, from a state that is not FAULTED,
out of RUNNING (by the fault entry or by FLUSH). -/
def LifecycleEndsIn (s t : State) : Prop :=
  KeepsLifecycle s t ∨ (s.life ≠ .faulted ∧ t.life ≠ .running)

theorem next_lifecycle (h : (.next u : Host.Outcome State Fault Refusal) = .next t)
    (hu : KeepsLifecycle s u) : LifecycleEndsIn s t := by
  cases h
  exact .inl hu

theorem runCommand_lifecycle {op : BitVec 8} {body : State → Except FaultCode State}
    (hop : admitted .faulted op = false) (h : runCommand op body s = .next t)
    (hbody : ∀ u, body s = .ok u → KeepsLifecycle s u ∨ u.life ≠ .running) :
    LifecycleEndsIn s t := by
  have hadm (ha : admitted s.life op = true) : s.life ≠ .faulted := by
    intro hl
    rw [hl, hop] at ha
    cases ha
  obtain ⟨ha, u, hu, rfl⟩ | ⟨ha, -, -, rfl⟩ | ⟨-, -, rfl⟩ | ⟨-, hl, rfl⟩ := runCommand_cases h
  · obtain hk | hk := hbody u hu
    · exact .inl ⟨hk.life, hk.faultCode, hk.faultInfo, hk.cancelled⟩
    · exact .inr ⟨hadm ha, hk⟩
  · exact .inr ⟨hadm ha, nofun⟩
  · exact .inl ⟨rfl, rfl, rfl, rfl⟩
  · exact .inr ⟨hl, nofun⟩

theorem runMicroOp_lifecycle {r : Except FaultCode State} (h : runMicroOp r s = .next t)
    (hrule : ∀ u, r = .ok u → KeepsLifecycle s u) : LifecycleEndsIn s t := by
  obtain hok | ⟨-, -, -, rfl⟩ | ⟨-, -, hl, rfl⟩ := runMicroOp_cases h
  · exact .inl (hrule t hok)
  · exact .inl ⟨rfl, rfl, rfl, rfl⟩
  · exact .inr ⟨hl, nofun⟩

theorem execBiquadStep_lifecycle (h : execBiquadStep s = .next t) : LifecycleEndsIn s t := by
  unfold execBiquadStep at h
  dsimp only at h
  split at h
  · exact next_lifecycle h ⟨rfl, rfl, rfl, rfl⟩
  · exact next_lifecycle h ⟨rfl, rfl, rfl, rfl⟩

theorem monitorStep_lifecycle {f : State → State} (hf : KeepsLifecycle s (f s))
    (h : (.next (if monitorEnabled s then f s else s) : Host.Outcome State Fault Refusal) = .next t) :
    LifecycleEndsIn s t := by
  refine next_lifecycle h ?_
  split
  · exact hf
  · exact ⟨rfl, rfl, rfl, rfl⟩

theorem execTrigStep_lifecycle (h : execTrigStep s = .next t) : LifecycleEndsIn s t := by
  refine runMicroOp_lifecycle h fun u hu => ?_
  split at hu <;> cases hu
  exact ⟨rfl, rfl, rfl, rfl⟩

theorem execLmLoad_lifecycle (h : execLmLoad s = .next t) : LifecycleEndsIn s t := by
  refine runMicroOp_lifecycle h fun u hu => ?_
  split at hu <;> cases hu
  exact ⟨rfl, rfl, rfl, rfl⟩

/-- Every instruction but RESET keeps the lifecycle, the fault registers and the cancellation, or leaves
the block in a state that is not RUNNING. The frames of the operations say so; FLUSH alone writes the
cancellation, and it ends in FLUSHED (R405). -/
theorem exec_lifecycle (hi : i ≠ .reset) (h : exec i s = .next t) : LifecycleEndsIn s t := by
  cases i with
  | reset => exact absurd rfl hi
  | nop =>
    rw [exec_nop_eq] at h
    exact next_lifecycle h ⟨rfl, rfl, rfl, rfl⟩
  | readStatus =>
    rw [exec_readStatus_eq] at h
    exact next_lifecycle h ⟨rfl, rfl, rfl, rfl⟩
  | readResult =>
    rw [exec_readResult] at h
    exact runCommand_lifecycle rfl h fun u hu => by cases hu; exact .inl ⟨rfl, rfl, rfl, rfl⟩
  | chunkEnd =>
    rw [exec_chunkEnd] at h
    refine runCommand_lifecycle rfl h fun u hu => .inl ?_
    rw [← Except.ok.inj hu, chunkEndBody_frame]
    exact ⟨rfl, rfl, rfl, rfl⟩
  | flush =>
    exact runCommand_lifecycle rfl h fun u hu => .inr (by rw [flushBody_frame hu]; nofun)
  | sample p =>
    exact runCommand_lifecycle rfl h fun u hu =>
      .inl (by rw [sampleBody_frame hu]; exact ⟨rfl, rfl, rfl, rfl⟩)
  | injectEnv p =>
    exact runCommand_lifecycle rfl h fun u hu =>
      .inl (by rw [injectEnvBody_frame hu]; exact ⟨rfl, rfl, rfl, rfl⟩)
  | injectTransition f p =>
    exact runCommand_lifecycle rfl h fun u hu =>
      .inl (by rw [injectTransitionBody_frame hu]; exact ⟨rfl, rfl, rfl, rfl⟩)
  | setTargetFreq p =>
    exact runCommand_lifecycle rfl h fun u hu =>
      .inl (by rw [setTargetFreqBody_frame hu]; exact ⟨rfl, rfl, rfl, rfl⟩)
  | biquadStep => exact execBiquadStep_lifecycle h
  | monEnqueue =>
    exact next_lifecycle h (by rw [monEnqueue_frame]; exact ⟨rfl, rfl, rfl, rfl⟩)
  | monDequeue =>
    exact monitorStep_lifecycle (by rw [monDequeue_frame]; exact ⟨rfl, rfl, rfl, rfl⟩) h
  | monTick =>
    exact monitorStep_lifecycle (by rw [monTick_frame]; exact ⟨rfl, rfl, rfl, rfl⟩) h
  | acceptAndSmooth =>
    exact next_lifecycle h (by rw [acceptAndSmooth_frame]; exact ⟨rfl, rfl, rfl, rfl⟩)
  | histSuggest =>
    exact next_lifecycle h (by rw [histSuggest_frame]; exact ⟨rfl, rfl, rfl, rfl⟩)
  | athUpdate =>
    exact next_lifecycle h (by rw [athUpdate_frame]; exact ⟨rfl, rfl, rfl, rfl⟩)
  | trigStep => exact execTrigStep_lifecycle h
  | symMarkEnd =>
    exact runMicroOp_lifecycle h fun u hu => by
      rw [symMarkEnd_frame hu]; exact ⟨rfl, rfl, rfl, rfl⟩
  | symFlush =>
    exact runMicroOp_lifecycle h fun u hu => by
      rw [symFlush_frame hu]; exact ⟨rfl, rfl, rfl, rfl⟩
  | wpmUpdate =>
    exact next_lifecycle h (by rw [wpmUpdate_frame]; exact ⟨rfl, rfl, rfl, rfl⟩)
  | settleMark =>
    exact runMicroOp_lifecycle h fun u hu => by
      rw [settleMark_frame hu]; exact ⟨rfl, rfl, rfl, rfl⟩
  | settleGap =>
    exact runMicroOp_lifecycle h fun u hu => by
      rw [settleGap_frame hu]; exact ⟨rfl, rfl, rfl, rfl⟩
  | beamStep =>
    exact next_lifecycle h (by rw [beamStep_frame]; exact ⟨rfl, rfl, rfl, rfl⟩)
  | lmLoad => exact execLmLoad_lifecycle h
  | envStage =>
    exact runMicroOp_lifecycle h fun u hu => by
      rw [envStage_frame hu]; exact ⟨rfl, rfl, rfl, rfl⟩
  | symbolStage =>
    exact runMicroOp_lifecycle h fun u hu => by
      rw [symbolStage_frame hu]; exact ⟨rfl, rfl, rfl, rfl⟩
  | _ => exact next_lifecycle h ⟨rfl, rfl, rfl, rfl⟩

/-- RESET runs the block with the fault registers clear and the cancellation off, or faults (R406). -/
theorem exec_reset_lifecycle (h : exec .reset s = .next t) :
    t.life = .faulted ∨
      (t.life = .running ∧ t.faultCode = 0 ∧ t.faultInfo = 0 ∧ t.link.cancelled = false) := by
  obtain ⟨hne, -⟩ | ⟨-, ⟨m, rfl⟩ | ⟨c, info, rfl⟩⟩ := exec_cases h
  · exact absurd rfl hne
  · exact .inr ⟨rfl, rfl, rfl, rfl⟩
  · exact .inl rfl

/-! ## A step and the word it took -/

/-- Everything that a host command step can do, with the word of the port that it took. -/
theorem commandStep_cases (h : commandStep s = .next t) :
    t = s ∨ (∃ op port, t = illegalCommand op { s with port := port }) ∨
      ∃ i port, decodeStream s.port = .ok (i, port) ∧ exec i { s with port := port } = .next t := by
  cases htake : takeWord s.port with
  | none =>
    unfold commandStep at h
    rw [htake] at h
    exact .inl (Host.Outcome.next.inj h).symm
  | some r =>
    obtain ⟨w, port⟩ := r
    cases hword : decodeWord w with
    | error e =>
      rw [commandStep_of_illegalWord htake hword] at h
      exact .inr (.inl ⟨_, port, (Host.Outcome.next.inj h).symm⟩)
    | ok i =>
      have hdecode : decodeStream s.port = .ok (i, port) := by
        simp only [decodeStream, htake, hword]
      rw [commandStep_of_decodeStream hdecode] at h
      exact .inr (.inr ⟨i, port, hdecode, h⟩)

/-- Everything that a step can do, where a RESET takes its word from the port. -/
def StepEndsIn (s t : State) : Prop :=
  ∃ port turns, t = { s with turns := turns } ∨
    (∃ op, t = illegalCommand op { s with port := port, turns := turns }) ∨
    ∃ i, exec i { s with port := port, turns := turns } = .next t ∧
      (i = .reset → decodeStream s.port = .ok (.reset, port))

theorem commandStep_endsIn {turns : List Turn} (h : commandStep { s with turns := turns } = .next t) :
    StepEndsIn s t := by
  obtain rfl | ⟨op, port, rfl⟩ | ⟨i, port, hdecode, hexec⟩ := commandStep_cases h
  · exact ⟨s.port, turns, .inl rfl⟩
  · exact ⟨port, turns, .inr (.inl ⟨op, rfl⟩)⟩
  · exact ⟨port, turns, .inr (.inr ⟨i, hexec, fun hi => hi ▸ hdecode⟩)⟩

/-- No micro-op id names a RESET, so a RESET that a step runs is a word of the port. -/
theorem step_endsIn (h : step s = .next t) : StepEndsIn s t := by
  cases hturns : s.turns with
  | nil =>
    rw [step_of_noTurn hturns] at h
    exact commandStep_endsIn (turns := s.turns) h
  | cons turn ts =>
    cases turn with
    | command =>
      rw [step_of_commandTurn hturns] at h
      exact commandStep_endsIn h
    | microOp id =>
      cases hid : decodeMicroOp id with
      | error e =>
        rw [step_of_unassigned hturns hid] at h
        cases h
      | ok i =>
        rw [step_of_microOpTurn hturns hid] at h
        exact ⟨s.port, ts, .inr (.inr ⟨i, h, fun hi =>
          absurd (hi ▸ rfl) (decodeMicroOp_notHost hid)⟩)⟩

/-- A step in FAULTED keeps the lifecycle and the fault registers, or it runs a RESET from the port. -/
theorem step_of_faulted (hl : s.life = .faulted) (h : step s = .next t) :
    (t.life = .faulted ∧ t.faultCode = s.faultCode ∧ t.faultInfo = s.faultInfo) ∨
      ∃ port, decodeStream s.port = .ok (.reset, port) ∧
        ∃ turns, exec .reset { s with port := port, turns := turns } = .next t := by
  obtain ⟨port, turns, rfl | ⟨op, rfl⟩ | ⟨i, hexec, hreset⟩⟩ := step_endsIn h
  · exact .inl ⟨hl, rfl, rfl⟩
  · unfold illegalCommand
    rw [if_pos hl]
    exact .inl ⟨hl, rfl, rfl⟩
  · by_cases hi : i = .reset
    · subst hi
      exact .inr ⟨port, hreset rfl, turns, hexec⟩
    · obtain hk | ⟨hn, -⟩ := exec_lifecycle hi hexec
      · exact .inl ⟨hk.life.trans hl, hk.faultCode, hk.faultInfo⟩
      · exact absurd hl hn

/-- Settles O8: FAULTED refuses the commands, a micro-op raises no fault there, and so only a RESET that
the step took from the port writes the fault registers or the lifecycle. -/
theorem faultedIsLeftOnlyByReset : Obligations.FaultedIsLeftOnlyByReset := by
  unfold Obligations.FaultedIsLeftOnlyByReset
  refine ⟨fun i s hi hreset hstatus hl => exec_of_faulted hi hreset hstatus hl,
    fun s t hl h hn => ?_, fun i s t hi hl h => ?_, fun s t hl h hn => ?_⟩
  · obtain ⟨hf, -⟩ | ⟨port, hport, turns, hexec⟩ := step_of_faulted hl h
    · exact absurd hf hn
    · obtain hf | ⟨hrun, hcode, hinfo, -⟩ := exec_reset_lifecycle hexec
      · exact absurd hf hn
      · exact ⟨port, hport, hrun, hcode, hinfo⟩
  · obtain hk | ⟨hnf, -⟩ := exec_lifecycle hi h
    · exact ⟨hk.life.trans hl, hk.faultCode, hk.faultInfo⟩
    · exact absurd hl hnf
  · obtain ⟨-, hcode, hinfo⟩ | ⟨port, hport, -⟩ := step_of_faulted hl h
    · exact absurd hn (by rw [hcode, hinfo]; simp)
    · exact ⟨port, hport⟩

end Sys2Proof.Proofs

/-! SUPPORT. The machine's runs and the executions of R422: a step is a step of an execution or changes
nothing but the turns, and a step of an execution is the machine's step at the turn it names. -/

namespace Sys2Proof.Proofs

open Sys2Proof Sys2Proof.Machine Sys2Proof.Laws

variable {i : Instr} {k : ScheduleStep} {ks : List ScheduleStep} {ts : List Turn} {s t : State} {n : Nat}

/-! ## What a host command keeps -/

theorem commandStep_turns (h : commandStep s = .next t) : t.turns = s.turns := by
  have hs := commandStep_withTurns (ts := s.turns) h
  rw [withTurns_self rfl] at hs
  have ht : t = withTurns s.turns t := Host.Outcome.next.inj (h.symm.trans hs)
  rw [ht, withTurns_turns]

theorem exec_params (h : exec i s = .next t) : t.params = s.params := by
  have himmutable := configurationIsImmutable
  unfold Obligations.ConfigurationIsImmutable at himmutable
  obtain ⟨-, -, hparams⟩ := himmutable i s t h
  exact hparams

theorem commandStep_params (h : commandStep s = .next t) : t.params = s.params := by
  obtain rfl | ⟨op, port, rfl⟩ | ⟨i, port, -, hexec⟩ := commandStep_cases h
  · rfl
  · unfold illegalCommand
    split <;> rfl
  · exact exec_params (s := { s with port := port }) hexec

/-! ## Steps of an execution -/

theorem scheduleStep_command (hword : (takeWord s.port).isSome = true) (h : commandStep s = .next t) :
    scheduleStep .command s = some t := by
  unfold scheduleStep
  rw [if_pos hword, h]
  rfl

theorem scheduleStep_dequeue (hon : monitorEnabled s = true) (hq : s.link.queue ≠ []) :
    scheduleStep .dequeue s = some (monDequeue s) := by
  have hcond : (monitorEnabled s && !s.link.queue.isEmpty) = true := by simpa [hon] using hq
  unfold scheduleStep
  exact if_pos hcond

theorem scheduleStep_tick (hon : monitorEnabled s = true) :
    scheduleStep .tick s = some (monTick s) := by
  unfold scheduleStep
  exact if_pos hon

theorem scheduleStep_turns (h : scheduleStep k s = some t) : t.turns = s.turns := by
  obtain ⟨-, -, hc⟩ | ⟨-, -, -, rfl⟩ | ⟨-, -, rfl⟩ := scheduleStep_cases h
  · exact commandStep_turns hc
  · rw [monDequeue_frame]
  · rw [monTick_frame]

theorem scheduleStep_params (h : scheduleStep k s = some t) : t.params = s.params := by
  obtain ⟨-, -, hc⟩ | ⟨-, -, -, rfl⟩ | ⟨-, -, rfl⟩ := scheduleStep_cases h
  · exact commandStep_params hc
  · rw [monDequeue_frame]
  · rw [monTick_frame]

theorem freeExecution_cons (h : freeExecution (k :: ks) s = some t) :
    ∃ u, scheduleStep k s = some u ∧ freeExecution ks u = some t :=
  Option.bind_eq_some_iff.1 h

theorem freeExecution_turns (h : freeExecution ks s = some t) : t.turns = s.turns := by
  induction ks generalizing s with
  | nil =>
    cases h
    rfl
  | cons k ks ih =>
    obtain ⟨u, hk, hks⟩ := freeExecution_cons h
    exact (ih hks).trans (scheduleStep_turns hk)

/-- Under REFERENCE an execution consists of host commands (R421). -/
theorem freeExecution_reference (hr : s.params.schedule = .reference)
    (h : freeExecution ks s = some t) : ∀ k ∈ ks, k = .command := by
  induction ks generalizing s with
  | nil => nofun
  | cons k ks ih =>
    obtain ⟨u, hk, hks⟩ := freeExecution_cons h
    exact List.forall_mem_cons.2 ⟨scheduleStep_reference hr hk,
      ih (by rw [scheduleStep_params hk, hr]) hks⟩

/-! ## A run is an execution -/

/-- `t` is `s` after one step of an execution, or after none, with no turns laid down in either. -/
def AtMostOneStep (s t : State) : Prop :=
  withTurns [] t = withTurns [] s ∨ ∃ k, scheduleStep k (withTurns [] s) = some (withTurns [] t)

/-- Waiting for a whole word is no step of an execution (R211, R422). -/
theorem commandStep_atMostOneStep (h : commandStep s = .next t) : AtMostOneStep s t := by
  cases hw : (takeWord s.port).isSome with
  | true => exact .inr ⟨.command, scheduleStep_command hw (commandStep_withTurns h)⟩
  | false =>
    have hnone : takeWord s.port = none := by simpa using hw
    unfold commandStep at h
    rw [hnone] at h
    cases h
    exact .inl rfl

/-- A MON_DEQUEUE that is not enabled, or of an empty queue, is no step of an execution. -/
theorem monDequeue_atMostOneStep (h : exec .monDequeue s = .next t) : AtMostOneStep s t := by
  have ht : (if monitorEnabled s then monDequeue s else s) = t := Host.Outcome.next.inj h
  split at ht
  · next hon =>
    subst ht
    by_cases hq : s.link.queue = []
    · left
      unfold monDequeue
      rw [hq]
    · exact .inr ⟨.dequeue, by
        rw [scheduleStep_dequeue (s := withTurns [] s) hon hq, monDequeue_withTurns]⟩
  · exact .inl (ht ▸ rfl)

/-- A MON_TICK that is not enabled is no step of an execution. -/
theorem monTick_atMostOneStep (h : exec .monTick s = .next t) : AtMostOneStep s t := by
  have ht : (if monitorEnabled s then monTick s else s) = t := Host.Outcome.next.inj h
  split at ht
  · next hon =>
    exact .inr ⟨.tick, by
      rw [scheduleStep_tick (s := withTurns [] s) hon, monTick_withTurns, ht]⟩
  · exact .inl (ht ▸ rfl)

theorem exec_monDequeue_turns (h : exec .monDequeue s = .next t) : t.turns = s.turns := by
  obtain rfl | rfl := exec_monDequeue_next h
  · rw [monDequeue_frame]
  · rfl

theorem exec_monTick_turns (h : exec .monTick s = .next t) : t.turns = s.turns := by
  obtain rfl | rfl := exec_monTick_next h
  · rw [monTick_frame]
  · rfl

/-- A step on a turn that is a host command or a monitor step takes the turn. -/
theorem step_atMostOneStep (hs : ScheduleTurns s) (h : step s = .next t) :
    t.turns = s.turns.tail ∧ AtMostOneStep s t := by
  cases hturns : s.turns with
  | nil =>
    rw [step_of_noTurn hturns] at h
    exact ⟨(commandStep_turns h).trans hturns, commandStep_atMostOneStep h⟩
  | cons turn ts =>
    obtain ⟨k, rfl⟩ := hs turn (by rw [hturns]; exact List.mem_cons_self)
    cases k with
    | command =>
      rw [step_of_commandTurn hturns] at h
      exact ⟨commandStep_turns h, commandStep_atMostOneStep (s := withTurns ts s) h⟩
    | dequeue =>
      rw [step_of_microOpTurn (i := .monDequeue) hturns rfl] at h
      exact ⟨exec_monDequeue_turns h, monDequeue_atMostOneStep (s := withTurns ts s) h⟩
    | tick =>
      rw [step_of_microOpTurn (i := .monTick) hturns rfl] at h
      exact ⟨exec_monTick_turns h, monTick_atMostOneStep (s := withTurns ts s) h⟩

theorem runSteps_succ (h : step s = .next t) (n : Nat) : runSteps (n + 1) s = runSteps n t := by
  rw [runSteps, h]

theorem step_of_runSteps (h : runSteps (n + 1) s = some t) :
    ∃ u, step s = .next u ∧ runSteps n u = some t := by
  unfold runSteps at h
  split at h
  · next u hu => exact ⟨u, hu, h⟩
  · cases h
  · cases h

theorem runSteps_isExecution (hs : ScheduleTurns s) (h : runSteps n s = some t) :
    ∃ ks, ks.length ≤ n ∧ freeExecution ks (withTurns [] s) = some (withTurns [] t) := by
  induction n generalizing s with
  | zero =>
    cases h
    exact ⟨[], Nat.le_refl _, rfl⟩
  | succ n ih =>
    obtain ⟨u, hu, hrun⟩ := step_of_runSteps h
    obtain ⟨hturns, hone⟩ := step_atMostOneStep hs hu
    obtain ⟨ks, hlen, hks⟩ := ih (fun v hv => hs v (List.mem_of_mem_tail (hturns ▸ hv))) hrun
    obtain hsame | ⟨k, hk⟩ := hone
    · exact ⟨ks, Nat.le_succ_of_le hlen, hsame ▸ hks⟩
    · exact ⟨k :: ks, Nat.succ_le_succ hlen, Option.bind_eq_some_iff.2 ⟨_, hk, hks⟩⟩

/-! ## An execution is a run -/

/-- The machine takes a step of an execution at the turn that the step names. -/
theorem step_of_scheduleStep (h : scheduleStep k s = some t) :
    step (withTurns (k.turn :: ts) s) = .next (withTurns ts t) := by
  obtain ⟨rfl, -, hc⟩ | ⟨rfl, hon, -, rfl⟩ | ⟨rfl, hon, rfl⟩ := scheduleStep_cases h
  · exact (step_of_commandTurn rfl).trans (commandStep_withTurns (s := s) hc)
  · rw [step_of_microOpTurn (i := .monDequeue) (ts := ts) rfl rfl, ← monDequeue_withTurns]
    exact congrArg Host.Outcome.next (if_pos hon)
  · rw [step_of_microOpTurn (i := .monTick) (ts := ts) rfl rfl, ← monTick_withTurns]
    exact congrArg Host.Outcome.next (if_pos hon)

theorem freeExecution_isRun (h : freeExecution ks s = some t) :
    runSteps ks.length (withTurns (ks.map ScheduleStep.turn) s) = some (withTurns [] t) := by
  induction ks generalizing s with
  | nil =>
    cases h
    rfl
  | cons k ks ih =>
    obtain ⟨u, hk, hks⟩ := freeExecution_cons h
    exact (runSteps_succ (step_of_scheduleStep hk) _).trans (ih hks)

/-! ## The cancellation -/

theorem step_notCancelledWhileRunning (hs : NotCancelledWhileRunning s) (h : step s = .next t) :
    NotCancelledWhileRunning t := by
  obtain ⟨port, turns, rfl | ⟨op, rfl⟩ | ⟨i, hexec⟩⟩ := step_cases h
  · exact hs
  · unfold illegalCommand
    split
    · exact hs
    · exact nofun
  · intro hrun
    by_cases hi : i = .reset
    · subst hi
      obtain hf | ⟨-, -, -, hcancelled⟩ := exec_reset_lifecycle hexec
      · exact absurd (hf.symm.trans hrun) nofun
      · exact hcancelled
    · obtain hk | ⟨-, hn⟩ := exec_lifecycle hi hexec
      · exact hk.cancelled.trans (hs (hk.life.symm.trans hrun))
      · exact absurd hrun hn

/-- Settles O54: the turns are invisible to what a step does, so a run and an execution are each other
with the turns laid down or taken away; every instruction but RESET that ends in RUNNING keeps the
cancellation. -/
theorem referenceRunsAreFreeRuns : Obligations.ReferenceRunsAreFreeRuns := by
  unfold Obligations.ReferenceRunsAreFreeRuns
  refine ⟨fun n s t hs h => ?_, fun ks s t hturns h => ?_,
    fun s t => step_notCancelledWhileRunning, fun _ => rfl⟩
  · obtain ⟨ks, hlen, hks⟩ := runSteps_isExecution hs h
    exact ⟨ks, hlen, hks, fun hr => freeExecution_reference (s := withTurns [] s) hr hks⟩
  · have hrun := freeExecution_isRun h
    rwa [withTurns_self ((freeExecution_turns h).trans hturns)] at hrun

end Sys2Proof.Proofs

/-! SUPPORT. The operands of the host commands in their ranges (R1207), the status words (R1213), what the
output port gets from EMIT_TEXT (R420), and the commands and stages that only hand these on. -/

namespace Sys2Proof.Proofs

open Sys2Proof Sys2Proof.Machine Sys2Proof.Laws

variable {s t : State} {d : Decoder} {frag : Text} {p : F32}

/-! ## Admission and ranges -/

theorem admitted_of_running {op : BitVec 8} (hl : s.life = .running) (hop : op.toNat ≤ 0x09) :
    admitted s.life op = true := by
  rw [hl]
  exact decide_eq_true hop

theorem sampleInRange_iff : sampleInRange p = true ↔
    (F64.ofF32 p).isFinite = true ∧ F64.lt F64.one (F64.ofF32 p).abs = false := by
  simp only [sampleInRange, payload, Bool.and_eq_true, Bool.not_eq_true']

theorem nonNegInRange_iff : nonNegInRange p = true ↔
    (F64.ofF32 p).isFinite = true ∧ F64.lt (F64.ofF32 p) F64.zero = false := by
  simp only [nonNegInRange, payload, Bool.and_eq_true, Bool.not_eq_true']

/-- A finite frequency strictly between 0.0 and fs / 2 is admitted (R413). -/
theorem freqInRange_of_between {fs : F64} (hfin : (F64.ofF32 p).isFinite = true)
    (hpos : F64.lt F64.zero (F64.ofF32 p) = true)
    (hhalf : F64.lt (F64.ofF32 p) (fs.div F64.two) = true) : freqInRange fs p = true := by
  simp only [freqInRange, payload, hfin, le_eq_false_of_lt hpos, le_eq_false_of_lt hhalf,
    Bool.not_false, Bool.and_self]

/-! ## Status words and reads -/

/-- Word 0 of READ_STATUS as a number: the code, the lifecycle at bit 8, the info at bit 32 (R1213). -/
theorem statusWord_zero (info : BitVec 32) (l c : BitVec 8) :
    info ++ (0 : BitVec 16) ++ l ++ c =
      BitVec.ofNat 64 (c.toNat + 2 ^ 8 * l.toNat + 2 ^ 32 * info.toNat) := by
  have hinfo : (info ++ (0 : BitVec 16)).toNat = 2 ^ 16 * info.toNat := by
    have hzero : (0 : BitVec 16).toNat = 0 := rfl
    rw [BitVec.toNat_append, hzero, Nat.or_zero, Nat.shiftLeft_eq, Nat.mul_comm]
  apply BitVec.eq_of_toNat_eq
  rw [append_byte_toNat, append_byte_toNat, hinfo, BitVec.toNat_ofNat]
  omega

theorem lifeCode_toNat (l : Life) : (lifeCode l).toNat =
    (match l with
      | .unconfigured => 0 | .running => 1 | .flushed => 2 | .faulted => 3) := by
  cases l <;> rfl

theorem exec_readResult_eq (h : s.life = .running ∨ s.life = .flushed) :
    exec .readResult s = .next (bumpPc (respond (.result (beamGetResult s.dec)) s)) := by
  have hadm : admitted s.life 0x05 = true := by obtain hl | hl := h <;> rw [hl] <;> rfl
  rw [exec_readResult]
  exact runCommand_ok hadm rfl

theorem beamGetResult_of_paths {q : Path} {qs : List Path} (h : d.paths = q :: qs) :
    beamGetResult d = q.sentence := by
  unfold beamGetResult
  rw [h]

/-- Settles O10: the three commands are admitted where they answer, and word 0 is the number that R1213
lays out. -/
theorem nopAndReads : Obligations.NopAndReads := by
  unfold Obligations.NopAndReads
  refine ⟨exec_nop_eq, fun s => ?_, fun s q qs hl hpaths => ?_⟩
  · rw [exec_readStatus_eq, statusWords, statusWord_zero, lifeCode_toNat]
    rfl
  · rw [exec_readResult_eq hl, beamGetResult_of_paths hpaths]
    rfl

/-- Settles O14: the frequency is admitted, and SDR_RETUNE is the whole rule. -/
theorem setTargetFreqRetunes : Obligations.SetTargetFreqRetunes := by
  unfold Obligations.SetTargetFreqRetunes
  intro s p hl hfin hpos hhalf
  have hbody : setTargetFreqBody p s =
      .ok { s with demod := sdrRetune s.cfg s.demod (payload p) } := by
    rw [setTargetFreqBody, freqInRange_of_between hfin hpos hhalf]
    rfl
  rw [exec_setTargetFreq, runCommand_ok (admitted_of_running hl (by decide)) hbody]
  rfl

/-! ## Emission (R420) -/

theorem emitText_of_eq (h : beamGetResult d = d.lastEmitted) : emitText d = d := by
  unfold emitText
  exact if_pos h

/-- Where the best sentence extends the last emission, the suffix is sent. -/
theorem emitText_of_append (h : beamGetResult d = d.lastEmitted ++ frag) (hne : frag ≠ []) :
    emitText d = { d with lastEmitted := beamGetResult d, out := d.out ++ [frag] } := by
  have hdiff : beamGetResult d ≠ d.lastEmitted := by simpa [h] using hne
  have hfrag : fragmentOf d.lastEmitted (beamGetResult d) = frag := by
    unfold fragmentOf
    rw [h, if_pos (List.isPrefixOf_iff_prefix.2 (List.prefix_append ..)), List.drop_left]
  unfold emitText
  dsimp only
  rw [if_neg hdiff, hfrag, if_neg hne]

/-- Where it does not, the whole sentence is sent, if it has a character. -/
theorem emitText_of_not_prefix (h : ¬ d.lastEmitted <+: beamGetResult d) :
    emitText d = { d with
      lastEmitted := beamGetResult d
      out := if beamGetResult d = [] then d.out else d.out ++ [beamGetResult d] } := by
  have hdiff : beamGetResult d ≠ d.lastEmitted := fun he => h (he ▸ List.prefix_refl _)
  have hfrag : fragmentOf d.lastEmitted (beamGetResult d) = beamGetResult d := by
    unfold fragmentOf
    exact if_neg (mt List.isPrefixOf_iff_prefix.1 h)
  unfold emitText
  dsimp only
  rw [if_neg hdiff, hfrag]

theorem exec_emitText (s : State) : exec .emitText s = .next { s with dec := emitText s.dec } := rfl

/-! ## The symbol stage (R414) -/

theorem symbolStage_gap (s : State) (x : F64) :
    symbolStage s ⟨false, x⟩ = .ok (emit (symGapEnd s x)) := rfl

theorem symbolStage_mark {x : F64} (h : symMarkEnd s x = .ok t) :
    symbolStage s ⟨true, x⟩ = .ok (emit t) := by
  unfold symbolStage
  simp only [h, if_true]

theorem exec_symbolStage (s : State) :
    exec .symbolStage s = runMicroOp (symbolStage s ⟨s.args.flag, s.args.x⟩) s := rfl

/-- Settles O52: EMIT_TEXT by its three cases, SYMBOL_STAGE by its two kinds of event. -/
theorem emitTextAndSymbolStageRun : Obligations.EmitTextAndSymbolStageRun := by
  unfold Obligations.EmitTextAndSymbolStageRun
  refine ⟨fun s q qs hpaths => ?_, fun s hflag => ?_, fun s hflag hroom => ?_⟩
  · have hbest := beamGetResult_of_paths hpaths
    rw [exec_emitText, ← hbest]
    refine ⟨fun h => ?_, fun frag h hne => ?_, fun h => ?_⟩
    · rw [emitText_of_eq h]
    · rw [emitText_of_append h hne]
    · rw [emitText_of_not_prefix h]
  · rw [exec_symbolStage, hflag, symbolStage_gap]
    rfl
  · obtain ⟨t, ht⟩ := symMarkEnd_room s.args.x hroom
    refine ⟨t, ht, ?_⟩
    rw [exec_symbolStage, hflag, symbolStage_mark ht]
    rfl

/-! ## INJECT_TRANSITION and FLUSH -/

theorem injectTransitionBody_of_inRange {f : Bool} (h : nonNegInRange p = true) :
    injectTransitionBody f p s = symbolStage s ⟨f, payload p⟩ := by
  unfold injectTransitionBody
  rw [h]
  rfl

/-- Settles O15: the duration is admitted, and SYMBOL_STAGE on it is the whole rule. -/
theorem injectTransitionRuns : Obligations.InjectTransitionRuns := by
  unfold Obligations.InjectTransitionRuns
  intro s p hl hfin hneg
  have hadm : admitted s.life 0x08 = true := admitted_of_running hl (by decide)
  have hrange := nonNegInRange_iff.2 ⟨hfin, hneg⟩
  refine ⟨?_, fun hroom => ?_⟩
  · rw [exec_injectTransition, runCommand_ok hadm
      ((injectTransitionBody_of_inRange hrange).trans (symbolStage_gap ..))]
    rfl
  · obtain ⟨t, ht⟩ := symMarkEnd_room (F64.ofF32 p) hroom
    have hpc : t.pc = s.pc := by rw [symMarkEnd_frame ht]
    refine ⟨t, ht, ?_, by rw [symMarkEnd_frame ht]⟩
    rw [exec_injectTransition, runCommand_ok hadm
      ((injectTransitionBody_of_inRange hrange).trans (symbolStage_mark ht)), ← hpc]
    rfl

/-- Settles O19: SYM_FLUSH runs where no settled mark overflows, and keeps what FLUSH then reads. -/
theorem flushRuns : Obligations.FlushRuns := by
  unfold Obligations.FlushRuns
  intro s hl hroom
  obtain ⟨t, ht⟩ := symFlush_room hroom
  have hpc : t.pc = s.pc := by rw [symFlush_frame ht]
  have hport : t.port = s.port := by rw [symFlush_frame ht]
  refine ⟨t, ht, ?_, by rw [symFlush_frame ht]⟩
  have hbody : flushBody s = .ok (dropPartialWord
      { emit t with
        link := { queue := [], chunkAcc := [], freqSlot := none, cancelled := true }
        life := .flushed }) := by
    unfold flushBody
    rw [ht]
  rw [exec_flush, runCommand_ok (admitted_of_running hl (by decide)) hbody, ← hpc, ← hport]
  rfl

end Sys2Proof.Proofs

/-! SUPPORT. The monitor and CHUNK_END in closed form: the hand-off (R410), the poll (R411), the monitor's
own steps (R701, R711), and the REFERENCE run of the monitor inside CHUNK_END (R404, R421). -/

namespace Sys2Proof.Proofs

open Sys2Proof Sys2Proof.Machine Sys2Proof.Laws

variable {s : State} {n : Nat}

/-! ## The hand-off and the poll -/

theorem monEnqueue_cancelled (c : List F64) (h : s.link.cancelled = true) : monEnqueue s c = s := by
  unfold monEnqueue
  exact if_pos h

theorem monEnqueue_full (c : List F64) (h : s.link.cancelled = false)
    (hfull : s.cfg.monQueueCapacity ≤ s.link.queue.length) :
    monEnqueue s c = countChunkDropped s := by
  unfold monEnqueue
  rw [if_neg (by rw [h]; exact Bool.false_ne_true), if_pos hfull]

theorem monEnqueue_room (c : List F64) (h : s.link.cancelled = false)
    (hroom : ¬ s.cfg.monQueueCapacity ≤ s.link.queue.length) :
    monEnqueue s c = { s with link := { s.link with queue := s.link.queue ++ [c] } } := by
  unfold monEnqueue
  rw [if_neg (by rw [h]; exact Bool.false_ne_true), if_neg hroom]

theorem exec_monEnqueue (s : State) : exec .monEnqueue s = .next (monEnqueue s s.args.vec) := rfl

theorem exec_freqPoll (s : State) : exec .freqPoll s =
    .next { s with link := { s.link with freqSlot := none }, ret := .freq s.link.freqSlot } := rfl

/-- Settles O32: MON_ENQUEUE is cancelled, meets a full queue, or has room. -/
theorem enqueueAndPollRun : Obligations.EnqueueAndPollRun := by
  unfold Obligations.EnqueueAndPollRun
  refine ⟨fun s => ?_, exec_freqPoll⟩
  rw [exec_monEnqueue]
  split
  · next h => rw [monEnqueue_cancelled _ h]
  · next h =>
    rw [Bool.not_eq_true] at h
    split
    · next hfull =>
      rw [monEnqueue_full _ h hfull]
      rfl
    · next hroom => rw [monEnqueue_room _ h hroom]

theorem countChunkDropped_eq (s : State) : countChunkDropped s =
    { s with adv := if s.adv.chunkDropped ≠ BitVec.allOnes 64 then
        { s.adv with chunkDropped := s.adv.chunkDropped + 1 } else s.adv } := by
  unfold countChunkDropped satInc
  by_cases hlimit : s.adv.chunkDropped = BitVec.allOnes 64
  · rw [if_pos hlimit, if_neg (not_not_intro hlimit)]
  · rw [if_neg hlimit, if_pos hlimit]

/-- The advisory counters after the hand-off of a chunk: a chunk that a full queue drops is counted, up to
the limit (R410, R1208). -/
def enqueuedAdv (s : State) : Advisory :=
  if s.link.cancelled = false ∧ decide (s.cfg.monQueueCapacity ≤ s.link.queue.length) = true ∧
      s.adv.chunkDropped ≠ BitVec.allOnes 64 then
    { s.adv with chunkDropped := s.adv.chunkDropped + 1 }
  else s.adv

/-- The queue after the hand-off of the chunk `c` (R410). -/
def enqueuedQueue (s : State) (c : List F64) : List (List F64) :=
  if s.link.cancelled = false ∧ decide (s.cfg.monQueueCapacity ≤ s.link.queue.length) = false
  then s.link.queue ++ [c] else s.link.queue

theorem monEnqueue_eq (s : State) (c : List F64) : monEnqueue s c =
    { s with adv := enqueuedAdv s, link := { s.link with queue := enqueuedQueue s c } } := by
  unfold enqueuedAdv enqueuedQueue
  cases hcancelled : s.link.cancelled with
  | true => simp [monEnqueue_cancelled c hcancelled]
  | false =>
    by_cases hfull : s.cfg.monQueueCapacity ≤ s.link.queue.length
    · simp [monEnqueue_full c hcancelled hfull, countChunkDropped_eq, hfull]
    · simp [monEnqueue_room c hcancelled hfull, hfull]

/-- The state with other advisory counters and another hand-off; the slot stays. -/
def withHandoff (r : Advisory) (q : List (List F64)) (a : List F64) (c : Bool) (s : State) : State :=
  { s with adv := r, link := { s.link with queue := q, chunkAcc := a, cancelled := c } }

/-- The state after the hand-off of CHUNK_END: the accumulator is enqueued and cleared (R404). -/
def handedOff (s : State) : State :=
  withHandoff (enqueuedAdv s) (enqueuedQueue s s.link.chunkAcc) [] s.link.cancelled s

theorem retuneByPoll_eq (s : State) : retuneByPoll s =
    { s with
      link := { s.link with freqSlot := none }
      demod := match s.link.freqSlot with
        | none => s.demod
        | some f => sdrRetune s.cfg s.demod f } := by
  unfold retuneByPoll freqPoll
  cases s.link.freqSlot <;> rfl

/-! ## The rule of CHUNK_END (R404) -/

theorem chunkEndBody_disabled (h : s.cfg.monitorEnabled = false) : chunkEndBody s = s := by
  unfold chunkEndBody
  exact if_neg (by rw [h]; exact Bool.false_ne_true)

theorem chunkEndBody_free (h : s.cfg.monitorEnabled = true) (hfree : s.params.schedule = .free) :
    chunkEndBody s = retuneByPoll (handedOff s) := by
  unfold chunkEndBody
  rw [if_pos h, monEnqueue_eq]
  dsimp only
  rw [if_neg (by rw [hfree]; decide)]
  rfl

theorem chunkEndBody_reference (h : s.cfg.monitorEnabled = true)
    (href : s.params.schedule = .reference) :
    chunkEndBody s = retuneByPoll (referenceRun (handedOff s)) := by
  unfold chunkEndBody
  rw [if_pos h, monEnqueue_eq]
  dsimp only
  rw [if_pos href]
  rfl

theorem exec_chunkEnd_of_running (h : s.life = .running) :
    exec .chunkEnd s = .next (bumpPc (chunkEndBody s)) := by
  rw [exec_chunkEnd]
  exact runCommand_ok (admitted_of_running h (by decide)) rfl

/-! ## The REFERENCE run (R421) -/

theorem monDequeue_queue (s : State) : (monDequeue s).link.queue = s.link.queue.tail := by
  unfold monDequeue
  cases hq : s.link.queue with
  | nil => exact hq
  | cons c q => rfl

theorem drainQueue_queue (n : Nat) (s : State) :
    (drainQueue n s).link.queue = s.link.queue.drop n := by
  induction n generalizing s with
  | zero => rfl
  | succ n ih => rw [drainQueue, ih, monDequeue_queue, List.drop_tail]

/-- The run drains the queue. -/
theorem referenceRun_queue (s : State) : (referenceRun s).link.queue = [] := by
  unfold referenceRun
  dsimp only
  rw [runTicks_frame]
  exact (drainQueue_queue ..).trans List.drop_length

/-- MON_TICKs write the smoothed frequency, the lock and the slot alone (R711). -/
theorem monTick_iterate_frame (n : Nat) (s : State) : monTick^[n] s =
    { s with mon := { s.mon with fsmooth := (monTick^[n] s).mon.fsmooth,
                                 locked := (monTick^[n] s).mon.locked },
             link := { s.link with freqSlot := (monTick^[n] s).link.freqSlot } } := by
  induction n generalizing s with
  | zero => rfl
  | succ n ih =>
    rw [Function.iterate_succ_apply, ih, monTick_frame]

/-- The ticks of a whole run use up every whole period of the tick account. -/
theorem runTicks_due (s : State) : runTicks (s.mon.sinceTick.toNat / s.cfg.tickSamples) s =
    monTick^[s.mon.sinceTick.toNat / s.cfg.tickSamples] { s with mon := { s.mon with
      sinceTick := BitVec.ofNat 64 (s.mon.sinceTick.toNat % s.cfg.tickSamples) } } := by
  rw [runTicks_eq _ s (Nat.div_mul_le_self ..), Nat.mod_eq_sub_div_mul]

theorem runTicks_due_lt (h : 1 ≤ s.cfg.tickSamples) :
    (runTicks (s.mon.sinceTick.toNat / s.cfg.tickSamples) s).mon.sinceTick.toNat <
      s.cfg.tickSamples := by
  rw [runTicks_due, monTick_iterate_frame]
  dsimp only
  rw [BitVec.toNat_ofNat]
  exact (Nat.mod_le ..).trans_lt (Nat.mod_lt _ h)

/-- The run uses up every whole tick period. -/
theorem referenceRun_sinceTick_lt (h : 1 ≤ s.cfg.tickSamples) :
    (referenceRun s).mon.sinceTick.toNat < s.cfg.tickSamples := by
  have hcfg : (drainQueue s.link.queue.length s).cfg = s.cfg := by rw [drainQueue_frame]
  rw [← hcfg] at h ⊢
  exact runTicks_due_lt h

theorem monTick_iterate_withHandoff (n : Nat) (r : Advisory) (q : List (List F64)) (a : List F64)
    (c : Bool) (s : State) :
    monTick^[n] (withHandoff r q a c s) = withHandoff r q a c (monTick^[n] s) :=
  (Function.Commute.iterate_left (f := monTick) (g := withHandoff r q a c)
    (fun s => monTick_handoff s q a c r) n) s

/-- The monitor's state when the samples `vs` have entered the ring and the account is at `v`. -/
def delivered (s : State) (vs : List F64) (v : Nat) : State :=
  { s with mon := { s.mon with
      ring := vs.foldl (ringWrite s.cfg.monRingLen) s.mon.ring
      sinceTick := BitVec.ofNat 64 v } }

/-- Below the limit of the tick account (log entry 16) the run delivers the queue and then ticks once for
each whole period. -/
theorem referenceRun_eq (h : s.mon.sinceTick.toNat + s.link.queue.flatten.length < 2 ^ 64) :
    referenceRun s =
      withHandoff s.adv [] s.link.chunkAcc s.link.cancelled
        (monTick^[(s.mon.sinceTick.toNat + s.link.queue.flatten.length) / s.cfg.tickSamples]
          (delivered s s.link.queue.flatten
            ((s.mon.sinceTick.toNat + s.link.queue.flatten.length) % s.cfg.tickSamples))) := by
  unfold referenceRun
  dsimp only
  rw [drainQueue_eq _ s rfl h, runTicks_due, ← monTick_iterate_withHandoff]
  dsimp only
  rw [BitVec.toNat_ofNat, Nat.mod_eq_of_lt h]
  rfl

/-- What CHUNK_END answers under REFERENCE below the limit of the tick account. -/
theorem chunkEndBody_reference_eq {due : Nat} {chunks : List F64} {ticked : State}
    (hon : s.cfg.monitorEnabled = true) (href : s.params.schedule = .reference)
    (hchunks : chunks = (enqueuedQueue s s.link.chunkAcc).flatten)
    (hdue : due = s.mon.sinceTick.toNat + chunks.length) (hlimit : due < 2 ^ 64)
    (hticked : ticked = monTick^[due / s.cfg.tickSamples] (delivered s chunks (due % s.cfg.tickSamples))) :
    chunkEndBody s =
      { s with
        adv := enqueuedAdv s
        link := { queue := [], chunkAcc := [], freqSlot := none, cancelled := s.link.cancelled }
        mon := ticked.mon
        demod := match ticked.link.freqSlot with
          | none => s.demod
          | some f => sdrRetune s.cfg s.demod f } := by
  subst hdue hchunks
  have hrun : referenceRun (handedOff s) =
      withHandoff (enqueuedAdv s) [] [] s.link.cancelled ticked := by
    rw [referenceRun_eq (s := handedOff s) hlimit, hticked]
    show withHandoff _ _ _ _ (monTick^[_] (withHandoff _ _ _ _ (delivered s _ _))) = _
    rw [monTick_iterate_withHandoff]
    rfl
  have hframe : ticked = { s with mon := ticked.mon,
                                  link := { s.link with freqSlot := ticked.link.freqSlot } } := by
    rw [hticked, monTick_iterate_frame]
    rfl
  rw [chunkEndBody_reference hon href, retuneByPoll_eq, hrun]
  rw [hframe]
  rfl

/-- Settles O18: with the monitor disabled nothing but the count of commands; under FREE the hand-off and
the poll; under REFERENCE the run between them, which drains the queue and uses up the tick periods. -/
theorem chunkEndRuns : Obligations.ChunkEndRuns := by
  unfold Obligations.ChunkEndRuns
  intro s hl
  rw [exec_chunkEnd_of_running hl]
  refine ⟨fun hoff => ?_, fun hon hfree => ?_, fun hon href => ?_, fun hon href htick => ?_⟩
  · rw [chunkEndBody_disabled hoff]
    rfl
  · dsimp only
    rw [chunkEndBody_free hon hfree, retuneByPoll_eq]
    rfl
  · refine ⟨_, rfl, ?_, ?_, ?_, fun htick => ?_, ?_⟩
    · rw [bumpPc_link, chunkEndBody_reference hon href, retuneByPoll_frame]
      exact referenceRun_queue _
    · rw [bumpPc_link, chunkEndBody_reference hon href, retuneByPoll_frame, referenceRun_frame]
      rfl
    · rw [bumpPc_link, chunkEndBody_reference hon href, retuneByPoll_frame]
    · rw [bumpPc_mon, chunkEndBody_reference hon href, retuneByPoll_frame]
      exact referenceRun_sinceTick_lt (s := handedOff s) htick
    · rw [chunkEndBody_frame]
      rfl
  · dsimp only
    intro hlimit
    rw [chunkEndBody_reference_eq hon href rfl rfl hlimit rfl]
    rfl

/-! ## The monitor's own steps (R421) -/

theorem monitorEnabled_iff : monitorEnabled s = true ↔
    s.params.schedule = .free ∧ s.life = .running ∧ s.cfg.monitorEnabled = true ∧
      s.link.cancelled = false := by
  simp only [monitorEnabled, Bool.and_eq_true, beq_iff_eq, Bool.not_eq_true', and_assoc]

theorem exec_monDequeue_of_enabled (h : monitorEnabled s = true) :
    exec .monDequeue s = .next (monDequeue s) :=
  congrArg Host.Outcome.next (if_pos h)

theorem exec_monTick_of_enabled (h : monitorEnabled s = true) :
    exec .monTick s = .next (monTick s) :=
  congrArg Host.Outcome.next (if_pos h)

theorem exec_monDequeue_of_disabled (h : ¬ monitorEnabled s = true) :
    exec .monDequeue s = .next s :=
  congrArg Host.Outcome.next (if_neg h)

theorem exec_monTick_of_disabled (h : ¬ monitorEnabled s = true) : exec .monTick s = .next s :=
  congrArg Host.Outcome.next (if_neg h)

theorem addSinceTick_eq {t : U64} (h : t.toNat + n < 2 ^ 64) :
    addSinceTick t n = t + BitVec.ofNat 64 n := by
  unfold addSinceTick
  rw [if_pos h, BitVec.ofNat_add, BitVec.ofNat_toNat, BitVec.setWidth_eq]

theorem monDequeue_cons {c : List F64} {q : List (List F64)} (h : s.link.queue = c :: q) :
    monDequeue s = { s with mon := absorbChunk s.cfg s.mon c, link := { s.link with queue := q } } := by
  unfold monDequeue
  rw [h]

/-- On a short ring, or where the band has no bin, MON_TICK does nothing (R711). -/
theorem monTick_of_none
    (h : (ringChrono s.cfg.monRingLen s.mon.ring).length < s.cfg.fftSize ∨
      peakSearch s.cfg (welchPsd s.cfg (ringChrono s.cfg.monRingLen s.mon.ring)) = none) :
    monTick s = s := by
  unfold monTick
  dsimp only
  split
  · rfl
  · next hlen => rw [h.resolve_left hlen]

/-- On a peak, MON_TICK hands it to ACCEPT_AND_SMOOTH (R711). -/
theorem monTick_of_peak {p : List F64} {kp : Nat}
    (hp : p = welchPsd s.cfg (ringChrono s.cfg.monRingLen s.mon.ring))
    (hlen : s.cfg.fftSize ≤ (ringChrono s.cfg.monRingLen s.mon.ring).length)
    (hpeak : peakSearch s.cfg p = some kp) :
    monTick s = acceptAndSmooth s (elemAt p kp) (noiseFloor p)
      (refinedFreq s.cfg kp (parabolicRefine s.cfg p kp)) := by
  subst hp
  unfold monTick
  dsimp only
  rw [if_neg (Nat.not_lt.2 hlen), hpeak]

/-- Settles O33: the two monitor steps by what they find, and their gate. -/
theorem monitorStepsRun : Obligations.MonitorStepsRun := by
  unfold Obligations.MonitorStepsRun
  intro s
  dsimp only
  rw [← monitorEnabled_iff]
  refine ⟨fun hon c q hq hlimit => ?_, fun hon h => ?_, fun hon hlen kp hpeak => ?_, fun hoff => ?_⟩
  · rw [exec_monDequeue_of_enabled hon, monDequeue_cons hq, absorbChunk, addSinceTick_eq hlimit]
    rfl
  · rw [exec_monTick_of_enabled hon, monTick_of_none h]
  · exact ⟨_, exec_monTick_of_enabled hon, monTick_of_peak rfl hlen hpeak, monTick_frame s⟩
  · exact ⟨exec_monDequeue_of_disabled hoff, exec_monTick_of_disabled hoff⟩

end Sys2Proof.Proofs

/-! SUPPORT. ENV_STAGE (R403): the threshold half in closed form, the trigger below the counter's limit, and
the symbol stage on its event; then SAMPLE and INJECT_ENV, which run it on an envelope. -/

namespace Sys2Proof.Proofs

open Sys2Proof Sys2Proof.Machine Sys2Proof.Laws

variable {s s' t : State} {e : F64} {tr : Trigger} {ev : Transition} {p : F32}

/-! ## The threshold half -/

theorem countSquelch_eq (s : State) : countSquelch s =
    { s with adv := if s.adv.squelch ≠ BitVec.allOnes 64 then
        { s.adv with squelch := s.adv.squelch + 1 } else s.adv } := by
  unfold countSquelch satInc
  by_cases hlimit : s.adv.squelch = BitVec.allOnes 64
  · rw [if_pos hlimit, if_neg (not_not_intro hlimit)]
  · rw [if_neg hlimit, if_pos hlimit]

/-- The advisory counters after HIST_SUGGEST: a squelch is counted, up to the limit (R802, R1208). -/
theorem histSuggest_eq (s : State) : histSuggest s =
    ({ s with adv := if (suggestion s.cfg s.thr).squelch = true ∧
          s.adv.squelch ≠ BitVec.allOnes 64
        then { s.adv with squelch := s.adv.squelch + 1 } else s.adv },
      suggestion s.cfg s.thr) := by
  unfold histSuggest
  dsimp only
  split
  · next h => simp only [countSquelch_eq, h, true_and]
  · next h => rw [if_neg fun hc => h hc.1]

/-- The thresholds after one envelope, by the configured strategy (R403, R805). -/
theorem thresholdStage_eq (s : State) (e : F64) : thresholdStage s e =
    if s.cfg.thresholdStrategy = .percentile then
      if (histPush s.cfg s.thr e).2 then
        { s with
          thr := { (histPush s.cfg s.thr e).1 with
            high := (pctToHl (suggestion s.cfg (histPush s.cfg s.thr e).1)).1
            low := (pctToHl (suggestion s.cfg (histPush s.cfg s.thr e).1)).2 }
          adv := if (suggestion s.cfg (histPush s.cfg s.thr e).1).squelch = true ∧
              s.adv.squelch ≠ BitVec.allOnes 64
            then { s.adv with squelch := s.adv.squelch + 1 } else s.adv }
      else { s with thr := (histPush s.cfg s.thr e).1 }
    else
      { s with
        thr := { (athUpdate s e).1.thr with high := (athUpdate s e).2.1, low := (athUpdate s e).2.2 }
        adv := (athUpdate s e).1.adv } := by
  unfold thresholdStage
  cases s.cfg.thresholdStrategy with
  | percentile =>
    dsimp only
    rw [histSuggest_eq, if_pos rfl]
    rfl
  | adaptive =>
    dsimp only
    rw [if_neg (by decide), setThresholds, athUpdate_frame]

theorem athUpdate_congr (hc : s'.cfg = s.cfg) (ht : s'.thr = s.thr) (e : F64) :
    (athUpdate s' e).1.thr = (athUpdate s e).1.thr ∧ (athUpdate s' e).2 = (athUpdate s e).2 := by
  unfold athUpdate
  dsimp only
  rw [hc, ht]
  split <;> exact ⟨rfl, rfl⟩

/-- The new thresholds depend on the registers and the thresholds alone. -/
theorem thresholdStage_thr_congr (hc : s'.cfg = s.cfg) (ht : s'.thr = s.thr) (e : F64) :
    (thresholdStage s' e).thr = (thresholdStage s e).thr := by
  obtain ⟨hthr, hpair⟩ := athUpdate_congr hc ht e
  rw [thresholdStage_eq, thresholdStage_eq, hc, ht, hthr, hpair]
  split
  · split <;> rfl
  · rfl

/-- Whether ENV_STAGE ends a mark depends on the registers, the thresholds and the trigger alone. -/
theorem endsMark_congr (hc : s'.cfg = s.cfg) (ht : s'.thr = s.thr) (hg : s'.trig = s.trig)
    (h : EndsMark s e) : EndsMark s' e := by
  unfold EndsMark
  rwa [hc, hg, thresholdStage_thr_congr hc ht]

/-! ## The trigger and the event -/

/-- Below the counter's limit TRIG_STEP does not fault (R1208). -/
theorem trigStep_room {u : Trigger} (c : Cfg) (x h l : F64) (hn : u.total ≠ BitVec.allOnes 64) :
    ∃ tr ev, trigStep c u x h l = .ok (tr, ev) := by
  cases hk : trigStep c u x h l with
  | ok r => exact ⟨r.1, r.2, rfl⟩
  | error x => exact absurd (trigStep_error hk).2 hn

/-- Without an event ENV_STAGE ends with the trigger. -/
theorem envStage_quiet (h : trigStep s.cfg s.trig e (thresholdStage s e).thr.high
    (thresholdStage s e).thr.low = .ok (tr, none)) :
    envStage s e = .ok { thresholdStage s e with trig := tr } := by
  have hcfg : (thresholdStage s e).cfg = s.cfg := by rw [thresholdStage_frame]
  have htrig : (thresholdStage s e).trig = s.trig := by rw [thresholdStage_frame]
  unfold envStage
  dsimp only
  rw [hcfg, htrig, h]

/-- On an event it runs the symbol stage. -/
theorem envStage_event (h : trigStep s.cfg s.trig e (thresholdStage s e).thr.high
    (thresholdStage s e).thr.low = .ok (tr, some ev)) :
    envStage s e = symbolStage { thresholdStage s e with trig := tr } ev := by
  have hcfg : (thresholdStage s e).cfg = s.cfg := by rw [thresholdStage_frame]
  have htrig : (thresholdStage s e).trig = s.trig := by rw [thresholdStage_frame]
  unfold envStage
  dsimp only
  rw [hcfg, htrig, h]

theorem symbolStage_room (h : ev.finished = true → ¬ MarkEndOverflows s) :
    ∃ u, symbolStage s ev = .ok u := by
  obtain ⟨finished, duration⟩ := ev
  cases finished with
  | false => exact ⟨_, symbolStage_gap ..⟩
  | true =>
    obtain ⟨t, ht⟩ := symMarkEnd_room duration (h rfl)
    exact ⟨_, symbolStage_mark ht⟩

/-- The symbol stage runs on the event of an envelope where SYM_MARK_END does not overflow. -/
theorem symbolStage_of_event (hroom : ¬ (EndsMark s e ∧ MarkEndOverflows s))
    (h : trigStep s.cfg s.trig e (thresholdStage s e).thr.high
      (thresholdStage s e).thr.low = .ok (tr, some ev)) :
    ∃ u, symbolStage { thresholdStage s e with trig := tr } ev = .ok u := by
  refine symbolStage_room fun hmark hover => hroom ⟨⟨tr, ev, h, hmark⟩, ?_⟩
  exact markEndOverflows_congr (by rw [thresholdStage_frame]) (by rw [thresholdStage_frame])
    (by rw [thresholdStage_frame]) hover

/-- ENV_STAGE runs below the counter's limit wherever SYM_MARK_END does not overflow. -/
theorem envStage_room (hn : s.trig.total ≠ BitVec.allOnes 64)
    (hroom : ¬ (EndsMark s e ∧ MarkEndOverflows s)) : ∃ u, envStage s e = .ok u := by
  obtain ⟨tr, ev, htrig⟩ := trigStep_room s.cfg e (thresholdStage s e).thr.high
    (thresholdStage s e).thr.low hn
  cases ev with
  | none => exact ⟨_, envStage_quiet htrig⟩
  | some ev =>
    rw [envStage_event htrig]
    exact symbolStage_of_event hroom htrig

/-- ENV_STAGE counts one sample. -/
theorem envStage_total (h : envStage s e = .ok t) : t.trig.total = s.trig.total + 1 := by
  have htrig : (thresholdStage s e).trig = s.trig := by rw [thresholdStage_frame]
  unfold envStage at h
  dsimp only at h
  split at h
  · cases h
  · next tr hk =>
    obtain ⟨-, rfl, -⟩ := trigStep_ok hk
    rw [← Except.ok.inj h, htrig]
  · next tr ev hk =>
    obtain ⟨-, rfl, -⟩ := trigStep_ok hk
    rw [symbolStage_frame h, htrig]

theorem exec_envStage (s : State) : exec .envStage s = runMicroOp (envStage s s.args.x) s := rfl

/-- Settles O53: the threshold half in closed form, then the trigger's two outcomes. -/
theorem envStageRuns : Obligations.EnvStageRuns := by
  unfold Obligations.EnvStageRuns
  intro s hn hroom e pushed g ath s1
  have hs1 : s1 = thresholdStage s e := (thresholdStage_eq s e).symm
  rw [hs1, exec_envStage]
  obtain ⟨tr, ev, htrig⟩ := trigStep_room s.cfg e (thresholdStage s e).thr.high
    (thresholdStage s e).thr.low hn
  refine ⟨tr, ev, htrig, fun hnone => ?_, fun x hsome => ?_⟩
  · rw [envStage_quiet (hnone ▸ htrig)]
    rfl
  · subst hsome
    obtain ⟨u, hu⟩ := symbolStage_of_event hroom htrig
    refine ⟨u, hu, ?_⟩
    rw [envStage_event htrig, hu]
    rfl

/-! ## INJECT_ENV and SAMPLE -/

theorem envStage_frame_coarse (h : envStage s e = .ok t) :
    t = { s with thr := t.thr, trig := t.trig, sym := t.sym, dec := t.dec, adv := t.adv } := by
  rw [envStage_frame h]

theorem envStage_lm (h : envStage s e = .ok t) : t.dec.lm = s.dec.lm := by
  rw [envStage_frame h]

/-- Settles O16: the envelope is admitted, and ENV_STAGE on it is the whole rule. -/
theorem injectEnvRuns : Obligations.InjectEnvRuns := by
  unfold Obligations.InjectEnvRuns
  intro s p hl hfin hneg hn hroom
  obtain ⟨t, ht⟩ := envStage_room hn hroom
  have hbody : injectEnvBody p s = .ok t := by
    unfold injectEnvBody
    rw [nonNegInRange_iff.2 ⟨hfin, hneg⟩]
    exact ht
  have hpc : t.pc = s.pc := by rw [envStage_frame ht]
  refine ⟨t, ht, ?_, envStage_frame_coarse ht, envStage_lm ht, envStage_total ht⟩
  rw [exec_injectEnv, runCommand_ok (admitted_of_running hl (by decide)) hbody, ← hpc]
  rfl

theorem pushSample_room (v : F64) (h : ¬ ChunkFull s) : ∃ u, pushSample s v = .ok u := by
  unfold pushSample
  split
  · next hon =>
    split
    · next c hc => exact ⟨_, if_neg fun hl => h ⟨hon, c, hc, by omega⟩⟩
    · exact ⟨_, rfl⟩
  · exact ⟨_, rfl⟩

/-- The state in which SAMPLE runs ENV_STAGE: the sample is in the accumulator while the monitor is
enabled, and the demodulator has stepped (R402). -/
def sampled (p : F32) (s : State) : State :=
  { s with
    link := { s.link with chunkAcc :=
      if s.cfg.monitorEnabled then s.link.chunkAcc ++ [F64.ofF32 p] else s.link.chunkAcc }
    demod := (sdrStep s.cfg s.demod (F64.ofF32 p)).1 }

theorem sampleBody_of_inRange (h : sampleInRange p = true) (hroom : ¬ ChunkFull s) :
    sampleBody p s = envStage (sampled p s) (sdrStep s.cfg s.demod (F64.ofF32 p)).2 := by
  obtain ⟨u, hu⟩ := pushSample_room (payload p) hroom
  unfold sampleBody
  rw [h, hu, pushSample_ok hu]
  rfl

/-- Settles O17: the sample is admitted and the accumulator has room, and ENV_STAGE ends a mark or
overflows after SDR_STEP where it does before. -/
theorem sampleRuns : Obligations.SampleRuns := by
  unfold Obligations.SampleRuns
  intro s p hl hfin habs hn hchunk hroom
  have hroom' : ¬ (EndsMark (sampled p s) (sdrStep s.cfg s.demod (F64.ofF32 p)).2 ∧
      MarkEndOverflows (sampled p s)) := fun ⟨hmark, hover⟩ =>
    hroom ⟨endsMark_congr (s := sampled p s) rfl rfl rfl hmark,
      markEndOverflows_congr (s := sampled p s) rfl rfl rfl hover⟩
  obtain ⟨t, ht⟩ := envStage_room (s := sampled p s) hn hroom'
  have hbody := (sampleBody_of_inRange (sampleInRange_iff.2 ⟨hfin, habs⟩) hchunk).trans ht
  have hpc : t.pc = s.pc := by
    rw [envStage_frame ht]
    rfl
  refine ⟨t, ht, ?_, envStage_frame_coarse (s := sampled p s) ht,
    envStage_lm (s := sampled p s) ht, envStage_total (s := sampled p s) ht⟩
  rw [exec_sample, runCommand_ok (admitted_of_running hl (by decide)) hbody, ← hpc]
  rfl

end Sys2Proof.Proofs

/-! SUPPORT. RESET on the next record of the configuration input (R406): the state that it constructs
(R1301, R1302), and which of its checks a record fails first (R1211). -/

namespace Sys2Proof.Proofs

open Sys2Proof Sys2Proof.Machine Sys2Proof.Laws

variable {s : State} {r : CfgRecord} {rs : List CfgRecord} {m : LangModel} {x : FaultCode}

/-! ## The record and its outcome -/

theorem nextRecord_of_cfgIn (h : s.cfgIn = r :: rs) : nextRecord s = r := by
  unfold nextRecord
  rw [h]
  rfl

theorem takeRecord_of_cfgIn (h : s.cfgIn = r :: rs) : takeRecord s = { s with cfgIn := rs } := by
  unfold takeRecord
  rw [h]
  rfl

theorem exec_reset_ok (h : s.cfgIn = r :: rs) (hm : validate r = .ok m) : exec .reset s =
    .next (bumpPc (dropPartialWord (construct r.registers m { s with cfgIn := rs }))) := by
  have hbody : resetBody r { s with cfgIn := rs } =
      .ok (dropPartialWord (construct r.registers m { s with cfgIn := rs })) := by
    unfold resetBody
    rw [hm]
  rw [exec_reset, nextRecord_of_cfgIn h, takeRecord_of_cfgIn h]
  exact runCommand_ok (admitted_reset _) hbody

theorem exec_reset_error (h : s.cfgIn = r :: rs) (hx : validate r = .error x) : exec .reset s =
    .next (takeFault x (faultInfoOf x 0x04) { s with cfgIn := rs }) := by
  have hbody : resetBody r { s with cfgIn := rs } = .error x := by
    unfold resetBody
    rw [hx]
  rw [exec_reset, nextRecord_of_cfgIn h, takeRecord_of_cfgIn h]
  exact runCommand_error (admitted_reset _) hbody

/-! ## An accepted record -/

theorem some_getD_of_isSome {α : Type} {o : Option α} (dflt : α) (h : o.isSome = true) :
    some (o.getD dflt) = o := by
  obtain ⟨a, rfl⟩ := Option.isSome_iff_exists.1 h
  rfl

/-- Settles O20: the constructed state field by field; each OPEN field of an accepted record is supplied,
so its register holds the value. -/
theorem resetSetsEveryElement : Obligations.ResetSetsEveryElement := by
  unfold Obligations.ResetSetsEveryElement
  intro s r rs m hcfg hm
  obtain ⟨-, hrate, hparams, hlm⟩ := validate_ok_iff.1 hm
  obtain ⟨hfs, -⟩ := sampleRateOk_iff.1 hrate
  obtain ⟨hlm, -⟩ := lmLoad_ok_iff.1 hlm
  obtain ⟨hopen, -⟩ := paramsOk_iff.1 hparams
  obtain ⟨target, mon, minF, maxF, snr, base, gain, max, queue, afc, ath, glitch, alpha, stats⟩ :=
    openSupplied_iff.1 hopen
  refine ⟨?_, hlm.symm, some_getD_of_isSome _ (by rw [hlm]; rfl), some_getD_of_isSome _ hfs,
    some_getD_of_isSome _ target, some_getD_of_isSome _ mon, some_getD_of_isSome _ minF,
    some_getD_of_isSome _ maxF, some_getD_of_isSome _ snr, some_getD_of_isSome _ base,
    some_getD_of_isSome _ gain, some_getD_of_isSome _ max, some_getD_of_isSome _ queue,
    some_getD_of_isSome _ afc, some_getD_of_isSome _ ath, some_getD_of_isSome _ glitch,
    some_getD_of_isSome _ alpha, some_getD_of_isSome _ stats, ?_⟩
  · rw [exec_reset_ok hcfg hm]
    rfl
  · and_intros <;> rfl

/-! ## A refused record -/

theorem filterOrderOk_eq_false_iff {n : Nat} :
    filterOrderOk n = false ↔ n % 2 = 1 ∨ n < 2 := by
  rw [← Bool.not_eq_true, filterOrderOk_iff]
  omega

/-- A supplied `fs` is outside the range of R1202; an `fs` that is not supplied fails too (log entry 5). -/
theorem sampleRateOk_eq_false_iff {o : Option F64} :
    sampleRateOk o = false ↔ ∀ fs, o = some fs → fs.isFinite = false ∨
      F64.lt fs F64.twoHundred = true ∨ F64.lt F64.maxRate fs = true := by
  cases o with
  | none => exact iff_of_true rfl nofun
  | some v =>
    simp only [sampleRateOk, Option.some.injEq, forall_eq', Bool.and_eq_false_iff, or_assoc]
    cases hfin : v.isFinite with
    | false => simp only [true_or]
    | true =>
      have hv := isNaN_eq_false_of_finite hfin
      rw [← Bool.not_eq_false (F64.lt v _), lt_eq_false_iff hv (by decide),
        ← Bool.not_eq_false (F64.lt _ v), lt_eq_false_iff (by decide) hv,
        Bool.not_eq_true, Bool.not_eq_true]

/-- The language model is not supplied (log entry 5), or one of its rows or entries is not valid (R1108). -/
theorem lmLoad_error_of_bad {o : Option LmRecord}
    (h : ∀ m, o = some m → ∃ row ∈ m, 1 < row.1.length ∨
      ∃ e ∈ row.2, e.1.length ≠ 1 ∨ e.2.isFinite = false ∨
        F64.lt F64.lmBound e.2 = false ∨ F64.le e.2 F64.zero = false) :
    lmLoad o = .error .cfgLmInvalid := by
  cases o with
  | none => rfl
  | some m =>
    have hbad : ¬ lmValid m = true := by
      intro hvalid
      obtain ⟨row, hrow, hbad⟩ := h m rfl
      obtain ⟨hkey, hentries⟩ := lmValid_iff.1 hvalid row hrow
      obtain hlong | ⟨e, he, hbad⟩ := hbad
      · exact absurd hkey (Nat.not_le.2 hlong)
      · obtain ⟨hlen, hfin, hlo, hhi⟩ := hentries e he
        simp [hlen, hfin, hlo, hhi] at hbad
    unfold lmLoad
    exact if_neg hbad

theorem validate_of_order (h : filterOrderOk r.filterOrder = false) :
    validate r = .error .cfgFilterOrder := by
  unfold validate
  rw [h]
  rfl

theorem validate_of_sampleRate (ho : filterOrderOk r.filterOrder = true)
    (h : sampleRateOk r.fs = false) : validate r = .error .cfgSampleRate := by
  unfold validate
  rw [ho, h]
  rfl

theorem validate_of_params (ho : filterOrderOk r.filterOrder = true)
    (hf : sampleRateOk r.fs = true) (h : paramsOk r = false) : validate r = .error .cfgParam := by
  unfold validate
  rw [ho, hf, h]
  rfl

theorem validate_of_lm (ho : filterOrderOk r.filterOrder = true) (hf : sampleRateOk r.fs = true)
    (hp : paramsOk r = true) : validate r = lmLoad r.lm := by
  unfold validate
  rw [ho, hf, hp]
  rfl

/-- Settles O21: the checks in their order, each as the proposition that it decides. -/
theorem resetReportsTheFirstFailure : Obligations.ResetReportsTheFirstFailure := by
  unfold Obligations.ResetReportsTheFirstFailure
  intro s r rs hcfg
  dsimp only
  rw [← filterOrderOk_eq_false_iff, ← sampleRateOk_eq_false_iff, Bool.not_eq_false,
    Bool.not_eq_false]
  refine ⟨fun ho => ?_, fun ho hf => ?_, fun ho hf hp => ?_, fun ho hf hp hlm => ?_⟩
  · exact exec_reset_error hcfg (validate_of_order ho)
  · exact exec_reset_error hcfg (validate_of_sampleRate ho hf)
  · exact exec_reset_error hcfg (validate_of_params ho hf hp)
  · exact exec_reset_error hcfg ((validate_of_lm ho hf hp).trans (lmLoad_error_of_bad hlm))

end Sys2Proof.Proofs

/-! SUPPORT. The filter micro-ops BIQUAD_STEP, LPF_CASCADE_STEP and LPF_DESIGN
(spec/41_butterworth_lpf.md): the next state of each, and the cascade, which the model writes as a
recursion, as the left fold of R505 that feeds each section with the output of the one before. -/

namespace Sys2Proof.Proofs

open Sys2Proof Sys2Proof.Machine Sys2Proof.Laws

/-! ## The cascade as a fold -/

/-- One turn of R505's loop: the sections done so far and the signal, after one more section. -/
def feedSection (a : List Biquad × F64) (sec : Biquad) : List Biquad × F64 :=
  (a.1 ++ [(biquadStep sec a.2).1], (biquadStep sec a.2).2)

/-- The loop over the sections that remain leaves the sections already done as they are. -/
theorem foldl_feedSection (secs done : List Biquad) (x : F64) :
    secs.foldl feedSection (done, x) =
      (done ++ (cascadeStep secs x).1, (cascadeStep secs x).2) := by
  induction secs generalizing done x with
  | nil => simp [cascadeStep]
  | cons sec rest ih =>
    calc (sec :: rest).foldl feedSection (done, x)
        = rest.foldl feedSection (done ++ [(biquadStep sec x).1], (biquadStep sec x).2) := rfl
      _ = (done ++ [(biquadStep sec x).1] ++ (cascadeStep rest (biquadStep sec x).2).1,
            (cascadeStep rest (biquadStep sec x).2).2) := ih ..
      _ = (done ++ (cascadeStep (sec :: rest) x).1, (cascadeStep (sec :: rest) x).2) := by
            simp [cascadeStep]

theorem cascadeStep_eq_foldl (secs : List Biquad) (x : F64) :
    cascadeStep secs x = secs.foldl feedSection ([], x) :=
  (foldl_feedSection secs [] x).symm

/-! ## The next states -/

theorem exec_biquadStep_of_section {s : State} {sec : Biquad}
    (hsec : (cascadeOf s.demod s.args.branch)[s.args.index]? = some sec) :
    exec .biquadStep s = .next (setRet (.num (biquadStep sec s.args.x).2)
      { s with
        demod := withCascade s.demod s.args.branch
          ((cascadeOf s.demod s.args.branch).set s.args.index (biquadStep sec s.args.x).1) }) := by
  change execBiquadStep s = _
  unfold execBiquadStep
  simp only [hsec]

theorem exec_lpfCascadeStep (s : State) :
    exec .lpfCascadeStep s =
      .next (setRet (.num (cascadeStep (cascadeOf s.demod s.args.branch) s.args.x).2)
        { s with
          demod := withCascade s.demod s.args.branch
            (cascadeStep (cascadeOf s.demod s.args.branch) s.args.x).1 }) := rfl

theorem exec_lpfDesign (s : State) :
    exec .lpfDesign s = .next { s with demod := lpfDesign s.cfg s.demod } := rfl

/-- Settles O26: the section as the model steps it, the cascade through its fold, and the design by the
formulas of R501 to R503, which the model states in the same order of operations. -/
theorem filterStepsRun : Obligations.FilterStepsRun := by
  unfold Obligations.FilterStepsRun
  refine ⟨fun s sec hsec => exec_biquadStep_of_section hsec, fun s => ?_, fun s => ?_⟩
  · rw [exec_lpfCascadeStep, cascadeStep_eq_foldl]
    rfl
  · rw [exec_lpfDesign]
    unfold lpfDesign designCascade
    rfl

end Sys2Proof.Proofs

/-! SUPPORT. The demodulator micro-ops LO_GEN, IQ_MIX, ENVELOPE, PHASE_ADVANCE, AFC_UPDATE, SDR_RETUNE and
SDR_STEP (spec/42_iq_demod_afc.md): the next state of each, the sign of an envelope, and the range of the
phase. -/

namespace Sys2Proof.Proofs

open Sys2Proof Sys2Proof.Machine Sys2Proof.Laws

/-! ## Results that are not below zero -/

/-- A number is not below zero when it is a NaN, has no sign bit, or is a zero of either sign. -/
theorem lt_zero_eq_false_iff {x : F64} :
    F64.lt x F64.zero = false ↔ x.isNaN = true ∨ x.sign = false ∨ x.mag = 0 := by
  have hzero : F64.zero.isNaN = false ∧ F64.zero.key = 0 := by decide
  unfold F64.lt
  rw [hzero.1, hzero.2]
  unfold F64.key
  cases x.isNaN <;> cases x.sign <;> simp

theorem units_eq_zero_of_mag {x : F64} (h : x.mag = 0) : x.units = 0 := by
  rw [units_eq_unitsOf, h, unitsOf_zero]

/-- A product of operands not below zero is not below zero. -/
theorem mul_not_neg {a b : F64} (ha : F64.lt a F64.zero = false) (hb : F64.lt b F64.zero = false) :
    F64.lt (a.mul b) F64.zero = false := by
  rw [lt_zero_eq_false_iff] at *
  unfold F64.mul
  dsimp only
  split
  · exact .inl (nan_isNaN a b)
  next hnan =>
    simp only [Bool.or_eq_true, not_or] at hnan
    have ha := ha.resolve_left hnan.1
    have hb := hb.resolve_left hnan.2
    split
    · split
      · exact .inl (nan_isNaN a b)
      next hzero =>
        simp only [F64.isZero, Bool.or_eq_true, decide_eq_true_eq, not_or] at hzero
        rw [ha.resolve_right hzero.1, hb.resolve_right hzero.2]
        exact .inr (.inl (ofSignMag_sign _ infMag_lt))
    · have hproduct (h : a.units * b.units = 0) :
          (F64.roundQ (a.sign != b.sign) (a.units * b.units) (2 ^ 1074)).mag = 0 := by
        rw [h, roundQ_mag, roundMag_zero _ (Nat.two_pow_pos _)]
      obtain ha | ha := ha
      · obtain hb | hb := hb
        · exact .inr (.inl (by rw [roundQ_sign, ha, hb]; rfl))
        · exact .inr (.inr (hproduct (by rw [units_eq_zero_of_mag hb, Nat.mul_zero])))
      · exact .inr (.inr (hproduct (by rw [units_eq_zero_of_mag ha, Nat.zero_mul])))

/-! ## The square root -/

/-- Newton's iteration only descends. -/
theorem isqrtIter_le (n fuel g : Nat) : F64.isqrtIter n fuel g ≤ g := by
  induction fuel generalizing g with
  | zero => exact le_refl g
  | succ fuel ih =>
    unfold F64.isqrtIter
    dsimp only
    split
    next hlt => exact (ih _).trans hlt.le
    next => exact le_refl g

theorem isqrt_le (n : Nat) : F64.isqrt n ≤ 2 ^ (Nat.log2 n / 2 + 1) := by
  unfold F64.isqrt
  split
  · exact Nat.zero_le _
  · exact isqrtIter_le ..

theorem log2_le_of_lt_two_pow {n k : Nat} (h : n < 2 ^ (k + 1)) : Nat.log2 n ≤ k := by
  rw [Nat.log2_eq_log_two]
  exact Nat.lt_succ_iff.1 (Nat.log_lt_of_lt_pow' (Nat.succ_ne_zero k) h)

theorem log2_isqrt_le (n : Nat) : Nat.log2 (F64.isqrt n) ≤ Nat.log2 n / 2 + 1 :=
  log2_le_of_lt_two_pow ((isqrt_le n).trans_lt (Nat.pow_lt_pow_right one_lt_two (Nat.lt_succ_self _)))

/-- A number has fewer units than its exponent field and 53 bits of significand allow. -/
theorem units_lt (x : F64) : x.units < 2 ^ (x.mag / 2 ^ 52 + 53) := by
  rw [units_eq_unitsOf]
  unfold unitsOf
  split
  next => exact (Nat.mod_lt _ (Nat.two_pow_pos 52)).trans (Nat.pow_lt_pow_right one_lt_two (by omega))
  next =>
    calc (2 ^ 52 + x.mag % 2 ^ 52) * 2 ^ (x.mag / 2 ^ 52 - 1)
        < 2 ^ 53 * 2 ^ (x.mag / 2 ^ 52 - 1) :=
          Nat.mul_lt_mul_of_pos_right (by omega) (Nat.two_pow_pos _)
      _ = 2 ^ (53 + (x.mag / 2 ^ 52 - 1)) := (pow_add ..).symm
      _ ≤ 2 ^ (x.mag / 2 ^ 52 + 53) := Nat.pow_le_pow_right two_pos (by omega)

theorem log2_units_shift_le (x : F64) (j : Nat) :
    Nat.log2 (x.units * 2 ^ j) ≤ x.mag / 2 ^ 52 + 52 + j := by
  refine log2_le_of_lt_two_pow ?_
  calc x.units * 2 ^ j < 2 ^ (x.mag / 2 ^ 52 + 53) * 2 ^ j :=
        Nat.mul_lt_mul_of_pos_right (units_lt x) (Nat.two_pow_pos j)
    _ = 2 ^ (x.mag / 2 ^ 52 + 53 + j) := (pow_add ..).symm
    _ = 2 ^ (x.mag / 2 ^ 52 + 52 + j + 1) := by rw [Nat.add_right_comm _ j 1]

/-- The integer root that `sqrt64` takes of a finite number has at most 1588 bits. -/
theorem log2_scaledRoot_le {x : F64} (h : x.isFinite = true) :
    Nat.log2 (F64.isqrt (x.units * 2 ^ 1074)) ≤ 1587 := by
  have hexp : x.mag / 2 ^ 52 ≤ 2046 := by
    have hmag := isFinite_iff.1 h
    unfold F64.infMag at hmag
    omega
  have hroot := log2_isqrt_le (x.units * 2 ^ 1074)
  have hn := log2_units_shift_le x 1074
  omega

/-- The pattern that `sqrt64` encodes does not reach the sign bit. -/
theorem rootPattern_lt {q0 up : Nat} (hq0 : Nat.log2 q0 ≤ 1587) (hup : up ≤ 1) :
    (Nat.log2 q0 - 52) * 2 ^ 52 + q0 / 2 ^ (Nat.log2 q0 - 52) + up < 2 ^ 63 := by
  have hsig : q0 / 2 ^ (Nat.log2 q0 - 52) < 2 ^ 53 := by
    rw [Nat.div_lt_iff_lt_mul (Nat.two_pow_pos _), ← pow_add]
    exact Nat.lt_log2_self.trans_le (Nat.pow_le_pow_right two_pos (by omega))
  omega

/-- A square root is not below zero: that of a negative number is a NaN, and those of the zeros are the
zeros. -/
theorem sqrt_not_neg (x : F64) : F64.lt (F64.sqrt x) F64.zero = false := by
  rw [lt_zero_eq_false_iff]
  unfold F64.sqrt
  split
  · exact .inl (nan_isNaN x x)
  next hnan =>
    split
    next hzero => exact .inr (.inr (of_decide_eq_true hzero))
    next =>
      split
      · exact .inl (nan_isNaN x x)
      next hsign =>
        split
        · exact .inr (.inl (Bool.not_eq_true _ ▸ hsign))
        next hinf =>
          have hfin : x.isFinite = true := by
            simp only [F64.isNaN, F64.isInf, decide_eq_true_eq] at hnan hinf
            exact isFinite_iff.2 (by omega)
          dsimp only
          exact .inr (.inl (ofSignMag_sign _
            (rootPattern_lt (log2_scaledRoot_le hfin) (by split <;> decide))))

/-! ## LO_GEN, IQ_MIX, ENVELOPE -/

theorem exec_loGen (s : State) : exec .loGen s =
    .next { s with ret := .pair (Config.numerics.cos s.demod.phi) (Config.numerics.sin s.demod.phi) } :=
  rfl

theorem exec_iqMix (s : State) : exec .iqMix s =
    .next { s with ret := .pair (s.args.x.mul s.args.y) (s.args.x.mul s.args.z) } := rfl

theorem exec_envelope (s : State) : exec .envelope s =
    .next { s with ret := .num (envelopeOf s.args.x s.args.y) } := rfl

theorem envelopeOf_not_neg (i q : F64) : F64.lt (envelopeOf i q) F64.zero = false :=
  mul_not_neg (by decide) (sqrt_not_neg _)

/-- Settles O27: an envelope is twice a square root, and neither factor is below zero. -/
theorem mixerAndEnvelopeRun : Obligations.MixerAndEnvelopeRun := by
  unfold Obligations.MixerAndEnvelopeRun
  exact ⟨exec_loGen, exec_iqMix, fun s => ⟨exec_envelope s, envelopeOf_not_neg ..⟩⟩

/-! ## The phase -/

/-- The remainder of a finite number by a finite modulus that is not zero is the rounding of the exact
remainder. -/
theorem fmod_finite {a m : F64} (ha : a.isFinite = true) (hm : m.isFinite = true)
    (h0 : m.mag ≠ 0) : F64.fmod a m = F64.roundQ a.sign (a.units % m.units) 1 := by
  unfold F64.fmod F64.isZero
  rw [isNaN_eq_false_of_finite ha, isNaN_eq_false_of_finite hm, isInf_eq_false_of_finite ha,
    isInf_eq_false_of_finite hm, decide_eq_false h0]
  rfl

/-- The remainder is not larger than the modulus in magnitude. -/
theorem fmod_mag_le {a m : F64} (ha : a.isFinite = true) (hm : m.isFinite = true)
    (h0 : m.mag ≠ 0) : (F64.fmod a m).mag ≤ m.mag := by
  have hpos : 0 < m.units := by
    rw [units_eq_unitsOf, ← unitsOf_zero]
    exact unitsOf_lt_iff.2 (Nat.pos_of_ne_zero h0)
  rw [fmod_finite ha hm h0, roundQ_mag]
  exact roundMag_le one_pos ((Nat.mod_lt _ hpos).le.trans_eq (Nat.mul_one _).symm)

/-- A number not larger in magnitude than `m` is not below `-m`. -/
theorem toInt_add_nonneg_of_mag_le {p m : F64} (hs : m.sign = false) (h : p.mag ≤ m.mag) :
    0 ≤ p.toInt + m.toInt := by
  have hu : p.units ≤ m.units := unitsOf_le_iff.2 h
  unfold F64.toInt
  rw [hs]
  cases p.sign <;> simp only [cond_true, cond_false] <;> omega

/-- One turn added to a negative remainder leaves no negative number (R607). -/
theorem lifted_remainder_nonneg {p m : F64} (hm : m.isFinite = true) (hs : m.sign = false)
    (h : p.mag ≤ m.mag) :
    F64.le F64.zero (if F64.lt p F64.zero then p.add m else p) = true := by
  have hfin : p.isFinite = true := isFinite_iff.2 (h.trans_lt (isFinite_iff.1 hm))
  have hzero : F64.zero.isNaN = false ∧ F64.zero.toInt = 0 := by decide
  split
  next =>
    rw [add_finite hfin hm]
    exact roundInt_ge hzero.1 (hzero.2 ▸ toInt_add_nonneg_of_mag_le hs h)
  next hneg =>
    exact (lt_eq_false_iff (isNaN_eq_false_of_finite hfin) hzero.1).1 (Bool.not_eq_true _ ▸ hneg)

/-- The turn's end is taken as its start (R607). -/
theorem reduced_in_turn {p m : F64} (hm : F64.lt F64.zero m = true) (h : F64.le F64.zero p = true) :
    F64.le F64.zero (if F64.le m p then F64.zero else p) = true ∧
      F64.lt (if F64.le m p then F64.zero else p) m = true := by
  obtain ⟨hzero, hnan, -⟩ := lt_iff.1 hm
  obtain ⟨-, hp, -⟩ := le_iff.1 h
  split
  next => exact ⟨le_self hzero, hm⟩
  next hlt =>
    refine ⟨h, ?_⟩
    rw [← Bool.not_eq_false, lt_eq_false_iff hp hnan]
    exact hlt

theorem twoPi_finite_pos : F64.twoPi.isFinite = true ∧ F64.twoPi.sign = false ∧
    F64.twoPi.mag ≠ 0 ∧ F64.lt F64.zero F64.twoPi = true := by decide

theorem exec_phaseAdvance (s : State) : exec .phaseAdvance s =
    .next { s with demod := phaseAdvance s.demod s.args.x } := rfl

/-- R120: the phase stays within one turn where the sum is finite. -/
theorem phaseAdvance_phi_range {d : Demod} {dphi : F64} (h : (d.phi.add dphi).isFinite = true) :
    F64.le F64.zero (phaseAdvance d dphi).phi = true ∧
      F64.lt (phaseAdvance d dphi).phi F64.twoPi = true := by
  obtain ⟨hfin, hsign, hmag, hpos⟩ := twoPi_finite_pos
  exact reduced_in_turn hpos (lifted_remainder_nonneg hfin hsign (fmod_mag_le h hfin hmag))

/-- Settles O30: the remainder lies within a turn of zero, a negative one is lifted by a turn, and the
turn's end goes to zero. -/
theorem phaseAdvanceRuns : Obligations.PhaseAdvanceRuns := by
  unfold Obligations.PhaseAdvanceRuns
  exact fun s => ⟨exec_phaseAdvance s, phaseAdvance_phi_range⟩

/-! ## AFC_UPDATE -/

/-- The measured frequency error in Hz (R604). -/
def afcError (c : Cfg) (d : Demod) (curr : F64) : F64 :=
  ((wrapPhase (curr.sub d.afcPrevPhase)).mul c.fs).div F64.twoPi

/-- The AFC frequency that a correction sets (R604). -/
def correctedFreq (c : Cfg) (d : Demod) (curr : F64) : F64 :=
  F64.clamp (d.afcFreq.add (c.afcPolarity.mul ((afcError c d curr).mul c.afcGain)))
    (d.f0.sub c.afcRangeHz) (d.f0.add c.afcRangeHz)

theorem afcCorrect_of_deadband {c : Cfg} {d : Demod} {curr : F64}
    (h : F64.lt (afcError c d curr).abs c.afcDeadbandHz = true) : afcCorrect c d curr = d := by
  unfold afcCorrect
  exact if_pos h

theorem afcCorrect_of_error {c : Cfg} {d : Demod} {curr : F64}
    (h : F64.lt (afcError c d curr).abs c.afcDeadbandHz = false) :
    afcCorrect c d curr =
      { d with afcFreq := correctedFreq c d curr,
               afcPhaseInc := phaseIncOf (correctedFreq c d curr) c.fs } := by
  unfold afcCorrect
  exact if_neg (Bool.eq_false_iff.1 h)

theorem afcUpdate_of_belowGate {c : Cfg} {e : F64} (h : ¬ F64.lt c.afcGate e = true) (d : Demod)
    (i q : F64) : afcUpdate c d i q e = ({ d with afcCount := 0 }, d.afcPhaseInc) := by
  unfold afcUpdate
  exact if_neg h

/-- A signal sample is counted, up to the count that a correction needs (R603). -/
def countSignal (c : Cfg) (d : Demod) : Demod :=
  { d with afcCount := Nat.min (d.afcCount + 1) c.afcMinConsecutive }

/-- The counted sample, and the correction once the count is full (R603). -/
def correctOnSignal (c : Cfg) (d : Demod) (curr : F64) : Demod :=
  if c.afcMinConsecutive ≤ (countSignal c d).afcCount then afcCorrect c (countSignal c d) curr
  else countSignal c d

theorem afcUpdate_of_signal {c : Cfg} {e : F64} (h : F64.lt c.afcGate e = true) (d : Demod)
    (i q : F64) : afcUpdate c d i q e =
      ({ correctOnSignal c d (Config.numerics.atan2 q i) with
          afcPrevPhase := Config.numerics.atan2 q i },
        (correctOnSignal c d (Config.numerics.atan2 q i)).afcPhaseInc) := by
  unfold afcUpdate
  exact if_pos h

/-- The condition under which a signal sample is acted on: the count is full, and the error is not in the
dead-band (R603, R604). -/
def ActsOnSignal (c : Cfg) (d : Demod) (curr : F64) : Prop :=
  c.afcMinConsecutive ≤ (countSignal c d).afcCount ∧
    F64.lt (afcError c d curr).abs c.afcDeadbandHz = false

theorem correctOnSignal_of_acts {c : Cfg} {d : Demod} {curr : F64} (h : ActsOnSignal c d curr) :
    correctOnSignal c d curr =
      { countSignal c d with afcFreq := correctedFreq c d curr,
                             afcPhaseInc := phaseIncOf (correctedFreq c d curr) c.fs } :=
  (if_pos h.1).trans (afcCorrect_of_error (d := countSignal c d) h.2)

theorem correctOnSignal_of_not_acts {c : Cfg} {d : Demod} {curr : F64}
    (h : ¬ ActsOnSignal c d curr) : correctOnSignal c d curr = countSignal c d := by
  unfold correctOnSignal
  split
  next hcount =>
    have hband : F64.lt (afcError c d curr).abs c.afcDeadbandHz = true :=
      eq_true_of_ne_false fun hact => h ⟨hcount, hact⟩
    exact afcCorrect_of_deadband (d := countSignal c d) hband
  next => rfl

/-- Settles O28: a sample below the gate, one that is acted on, and one that is only measured. -/
theorem afcUpdateRuns : Obligations.AfcUpdateRuns := by
  unfold Obligations.AfcUpdateRuns
  intro s c d curr n d0 d1 err f inc
  rw [exec_afcUpdate]
  by_cases hgate : F64.lt c.afcGate s.args.z = true
  · rw [if_pos hgate, afcUpdate_of_signal hgate]
    by_cases hact : c.afcMinConsecutive ≤ n ∧ F64.lt err.abs c.afcDeadbandHz = false
    · rw [if_pos hact, correctOnSignal_of_acts hact]
      rfl
    · rw [if_neg hact, correctOnSignal_of_not_acts hact]
      rfl
  · rw [if_neg hgate, afcUpdate_of_belowGate hgate]
    rfl

/-! ## SDR_RETUNE and SDR_STEP -/

theorem exec_sdrRetune (s : State) : exec .sdrRetune s =
    .next { s with demod := sdrRetune s.cfg s.demod s.args.x } := rfl

theorem exec_sdrStep (s : State) : exec .sdrStep s =
    .next (setRet (.num (sdrStep s.cfg s.demod s.args.x).2)
      { s with demod := (sdrStep s.cfg s.demod s.args.x).1 }) := rfl

theorem phaseIncrement_of_afc {c : Cfg} (h : c.afcEnabled = true) (d : Demod) (i q e : F64) :
    phaseIncrement c d i q e = afcUpdate c d i q e := if_pos h

theorem phaseIncrement_of_noAfc {c : Cfg} (h : ¬ c.afcEnabled = true) (d : Demod) (i q e : F64) :
    phaseIncrement c d i q e = (d, phaseIncOf d.f0 c.fs) := if_neg h

/-- Settles O31: the retune is the model's own hysteresis test, and the two cases of SDR_STEP are the two
sources of the phase increment. -/
theorem sdrRetuneAndStepRun : Obligations.SdrRetuneAndStepRun := by
  unfold Obligations.SdrRetuneAndStepRun
  refine ⟨exec_sdrRetune, ?_⟩
  intro s i q ci cq e d1
  rw [exec_sdrStep]
  unfold sdrStep
  dsimp only
  by_cases hafc : s.cfg.afcEnabled = true
  · rw [if_pos hafc, phaseIncrement_of_afc hafc]
    rfl
  · rw [if_neg hafc, phaseIncrement_of_noAfc hafc]
    rfl

end Sys2Proof.Proofs

/-! SUPPORT. The array reads of R11, and the spectrum operations of spec/43: the sum of the segment powers
bin by bin (R704), the sort of values without NaN (R16), the scan for the peak (R706), and the conditions of
PARABOLIC_REFINE and ACCEPT_AND_SMOOTH. -/

namespace Sys2Proof.Proofs

open Sys2Proof Sys2Proof.Machine Sys2Proof.Laws

variable {p : List F64} {c : Cfg}

/-! ## Array reads (R11) -/

theorem elemAt_of_getElem? {v : List F64} {i : Nat} {a : F64} (h : v[i]? = some a) :
    elemAt v i = a := by
  rw [elemAt, h, Option.getD_some]

theorem getElem?_eq_some_elemAt {v : List F64} {i : Nat} (h : i < v.length) :
    v[i]? = some (elemAt v i) := by
  rw [elemAt, List.getElem?_eq_getElem h, Option.getD_some]

theorem elemAt_mem {v : List F64} {i : Nat} (h : i < v.length) : elemAt v i ∈ v :=
  List.mem_of_getElem? (getElem?_eq_some_elemAt h)

/-! ## WELCH_PSD -/

theorem exec_welchPsd (s : State) : exec .welchPsd s =
    .next { s with ret := .vec (welchPsd s.cfg s.args.vec) } := rfl

theorem welchPsd_length (c : Cfg) (buf : List F64) :
    (welchPsd c buf).length = c.fftSize / 2 + 1 := by
  simp [welchPsd]

theorem segmentCount_of_le {n hop len : Nat} (h : n ≤ len) :
    segmentCount n hop len = (len - n) / hop + 1 := if_neg (Nat.not_lt.2 h)

theorem segmentPower_getElem? {n k : Nat} (seg : List F64) (h : k ≤ n / 2) :
    (segmentPower n seg)[k]? = some (Config.numerics.fftPower seg k) := by
  simp [segmentPower, Nat.lt_succ_of_le h]

/-- Adding spectra one after the other adds their bins one after the other. -/
theorem foldl_zipWith_add_getElem? {ι : Type} {f : ι → List F64} {g : ι → F64} {k : Nat}
    (hg : ∀ j, (f j)[k]? = some (g j)) (js : List ι) {acc : List F64} {a : F64}
    (ha : acc[k]? = some a) :
    ((js.map f).foldl (fun acc q => List.zipWith F64.add acc q) acc)[k]? =
      some ((js.map g).foldl F64.add a) := by
  induction js generalizing acc a with
  | nil => exact ha
  | cons j js ih =>
    have hstep : (List.zipWith F64.add acc (f j))[k]? = some (a.add (g j)) := by
      rw [List.getElem?_zipWith, ha, hg j]
    exact ih hstep

/-- A bin of the summed power of `m + 1` segments: the first one's, and the later ones added in order. -/
theorem sumPowers_range_getElem? {f : Nat → List F64} {g : Nat → F64} {k : Nat}
    (hg : ∀ j, (f j)[k]? = some (g j)) (m : Nat) :
    (sumPowers ((List.range (m + 1)).map f))[k]? =
      some (((List.range m).map fun j => g (j + 1)).foldl F64.add (g 0)) := by
  rw [List.range_succ_eq_map, List.map_cons, List.map_map]
  exact foldl_zipWith_add_getElem? (fun j => hg (j + 1)) (List.range m) (hg 0)

/-- A bin of the average over `m + 1` segments. -/
theorem welchPsd_getElem? {buf : List F64} {m k : Nat}
    (hm : segmentCount c.fftSize c.hop buf.length = m + 1) (hk : k ≤ c.fftSize / 2) :
    (welchPsd c buf)[k]? = some
      ((((List.range m).map fun j =>
          Config.numerics.fftPower (windowed c.fftSize buf ((j + 1) * c.hop)) k).foldl F64.add
        (Config.numerics.fftPower (windowed c.fftSize buf (0 * c.hop)) k)).div (F64.ofNat (m + 1))) := by
  have hsum := elemAt_of_getElem? (sumPowers_range_getElem?
    (fun j => segmentPower_getElem? (windowed c.fftSize buf (j * c.hop)) hk) m)
  unfold welchPsd
  dsimp only
  rw [hm, List.getElem?_map, List.getElem?_range (Nat.lt_succ_of_le hk), Option.map_some, hsum]

/-- Settles O34: by the induction over the segments in `sumPowers_range_getElem?`. -/
theorem welchPsdAverages : Obligations.WelchPsdAverages := by
  unfold Obligations.WelchPsdAverages
  intro s hlen
  exact ⟨_, exec_welchPsd s, welchPsd_length .., fun k hk =>
    welchPsd_getElem? (segmentCount_of_le hlen) hk⟩

/-! ## NOISE_FLOOR -/

theorem exec_noiseFloor (s : State) : exec .noiseFloor s =
    .next { s with ret := .num ((median s.args.vec).max F64.billionth) } := rfl

theorem sortAsc_perm (v : List F64) : (sortAsc v).Perm v := List.perm_insertionSort ..

theorem before_eq_false_iff {a b : F64} (ha : a.isNaN = false) (hb : b.isNaN = false) :
    F64.before b a = false ↔ a.key ≤ b.key := by
  have hle : F64.le a b = true ↔ a.key ≤ b.key := by simp [le_iff, ha, hb]
  rw [← hle, ← lt_eq_false_iff hb ha]
  simp [F64.before, ha, hb]

/-- Without a NaN the sort of R16 is the sort by key, a total order. -/
theorem sortAsc_eq_sort_by_key {v : List F64} (hv : ∀ x ∈ v, x.isNaN = false) :
    sortAsc v = v.insertionSort (fun a b => a.key ≤ b.key) := by
  have h := List.map_insertionSort (r := fun a b => F64.before b a = false)
    (fun a b : F64 => a.key ≤ b.key) id v
    (fun a ha b hb => before_eq_false_iff (hv a ha) (hv b hb))
  rwa [List.map_id, List.map_id] at h

theorem sortAsc_pairwise {v : List F64} (hv : ∀ x ∈ v, x.isNaN = false) :
    (sortAsc v).Pairwise (fun a b => F64.le a b = true) := by
  have htotal : Std.Total (fun a b : F64 => a.key ≤ b.key) := ⟨fun a b => le_total a.key b.key⟩
  have htrans : IsTrans F64 (fun a b => a.key ≤ b.key) := ⟨fun _ _ _ h1 h2 => Int.le_trans h1 h2⟩
  have hkey : (sortAsc v).Pairwise (fun a b => a.key ≤ b.key) := by
    rw [sortAsc_eq_sort_by_key hv]
    exact List.pairwise_insertionSort ..
  refine hkey.imp_of_mem fun {a b} ha hb h => le_iff.2 ⟨hv a ?_, hv b ?_, h⟩
  · exact (sortAsc_perm v).mem_iff.1 ha
  · exact (sortAsc_perm v).mem_iff.1 hb

theorem median_odd (h : p.length % 2 = 1) : median p = elemAt (sortAsc p) (p.length / 2) := if_pos h

theorem median_even (h : p.length % 2 = 0) : median p =
    ((elemAt (sortAsc p) (p.length / 2 - 1)).add (elemAt (sortAsc p) (p.length / 2))).div F64.two :=
  if_neg (by omega)

/-- Settles O35: the sorted values are `sortAsc`'s, and the middle places lie inside them. -/
theorem noiseFloorIsTheMedian : Obligations.NoiseFloorIsTheMedian := by
  unfold Obligations.NoiseFloorIsTheMedian
  intro s hne hnum
  have hlen : (sortAsc s.args.vec).length = s.args.vec.length := (sortAsc_perm _).length_eq
  have hpos : 0 < s.args.vec.length := List.length_pos_of_ne_nil hne
  refine ⟨sortAsc s.args.vec, median s.args.vec, sortAsc_perm _, sortAsc_pairwise hnum,
    fun hodd => ?_, fun heven => ?_, exec_noiseFloor s⟩
  · rw [median_odd hodd]
    exact getElem?_eq_some_elemAt (by omega)
  · exact ⟨_, _, getElem?_eq_some_elemAt (by omega), getElem?_eq_some_elemAt (by omega),
      median_even heven⟩

/-! ## PEAK_SEARCH -/

theorem exec_peakSearch (s : State) : exec .peakSearch s =
    .next { s with ret := .bin (peakSearch s.cfg s.args.vec) } := rfl

theorem mem_bandBins {k : Nat} : k ∈ bandBins c ↔ k ≤ c.fftSize / 2 ∧
    F64.le c.minFreqHz (((F64.ofNat k).mul c.fs).div (F64.ofNat c.fftSize)) = true ∧
    F64.le (((F64.ofNat k).mul c.fs).div (F64.ofNat c.fftSize)) c.maxFreqHz = true := by
  simp [bandBins]

theorem bandBins_increasing (c : Cfg) : (bandBins c).Pairwise (· < ·) :=
  List.pairwise_lt_range.filter _

/-- The stronger of the peak so far and a bin after it; of equals the peak so far (R706). -/
def strongerBin (p : List F64) (kp k : Nat) : Nat :=
  if F64.lt (elemAt p kp) (elemAt p k) then k else kp

theorem strongerBin_self (p : List F64) (k : Nat) : strongerBin p k k = k := ite_self k

/-- `kp` is the lowest of the strongest of the bins `ks`: R706 by keys, and the invariant of the scan. -/
structure LowestPeak (p : List F64) (ks : List Nat) (kp : Nat) : Prop where
  mem : kp ∈ ks
  key_le : ∀ k ∈ ks, (elemAt p k).key ≤ (elemAt p kp).key
  key_lt : ∀ k ∈ ks, k < kp → (elemAt p k).key < (elemAt p kp).key

theorem LowestPeak.singleton (p : List F64) (k : Nat) : LowestPeak p [k] k where
  mem := List.mem_singleton_self k
  key_le j hj := by rw [List.mem_singleton.1 hj]
  key_lt j hj hlt := absurd (List.mem_singleton.1 hj) hlt.ne

/-- One more bin, after all the bins seen, keeps the scan at the lowest peak. -/
theorem LowestPeak.append {seen : List Nat} {kp k : Nat} (h : LowestPeak p seen kp)
    (hnum : ∀ j ∈ seen ++ [k], (elemAt p j).isNaN = false) (hlast : ∀ j ∈ seen, j < k) :
    LowestPeak p (seen ++ [k]) (strongerBin p kp k) := by
  have hlt : F64.lt (elemAt p kp) (elemAt p k) = true ↔ (elemAt p kp).key < (elemAt p k).key := by
    simp [lt_iff, hnum kp (List.mem_append_left _ h.mem), hnum k (by simp)]
  have hkp := hlast kp h.mem
  unfold strongerBin
  split
  next hstronger =>
    have hstronger := hlt.1 hstronger
    refine ⟨by simp, fun j hj => ?_, fun j hj hjk => ?_⟩
    all_goals obtain hj | hj := List.mem_append.1 hj
    · exact (h.key_le j hj).trans hstronger.le
    · rw [List.mem_singleton.1 hj]
    · exact (h.key_le j hj).trans_lt hstronger
    · exact absurd (List.mem_singleton.1 hj) hjk.ne
  next hweaker =>
    have hweaker := not_lt.1 (hlt.not.1 hweaker)
    refine ⟨List.mem_append_left _ h.mem, fun j hj => ?_, fun j hj hjk => ?_⟩
    all_goals obtain hj | hj := List.mem_append.1 hj
    · exact h.key_le j hj
    · rw [List.mem_singleton.1 hj]; exact hweaker
    · exact h.key_lt j hj hjk
    · rw [List.mem_singleton.1 hj] at hjk; omega

/-- The scan over the bins still to come, in increasing order, ends at the lowest peak of all bins. -/
theorem LowestPeak.foldl {seen ks : List Nat} {kp : Nat} (h : LowestPeak p seen kp)
    (hnum : ∀ j ∈ seen ++ ks, (elemAt p j).isNaN = false) (hinc : (seen ++ ks).Pairwise (· < ·)) :
    LowestPeak p (seen ++ ks) (ks.foldl (strongerBin p) kp) := by
  induction ks generalizing seen kp with
  | nil => rwa [List.append_nil]
  | cons k ks ih =>
    rw [List.append_cons] at hnum hinc ⊢
    have hseen := (List.pairwise_append.1 hinc).1
    exact ih (h.append (fun j hj => hnum j (List.mem_append_left _ hj))
      fun j hj => (List.pairwise_append.1 hseen).2.2 j hj k (List.mem_singleton_self k)) hnum hinc

theorem peakSearch_eq_none_iff : peakSearch c p = none ↔ bandBins c = [] := by
  unfold peakSearch
  cases bandBins c <;> simp

theorem peakSearch_lowestPeak {kp : Nat} (hnum : ∀ k ∈ bandBins c, (elemAt p k).isNaN = false)
    (h : peakSearch c p = some kp) : LowestPeak p (bandBins c) kp := by
  have hinc := bandBins_increasing c
  unfold peakSearch at h
  cases hbins : bandBins c with
  | nil => rw [hbins] at h; cases h
  | cons k0 ks =>
    rw [hbins] at h hnum hinc
    have hscan : (k0 :: ks).foldl (strongerBin p) k0 = kp := Option.some.inj h
    rw [List.foldl_cons, strongerBin_self] at hscan
    rw [← hscan]
    exact (LowestPeak.singleton p k0).foldl hnum hinc

/-- The lowest peak in the comparisons of R9, over bins that the spectrum holds. -/
theorem LowestPeak.lt_of_getElem? {ks : List Nat} {kp k : Nat} {a b : F64} (h : LowestPeak p ks kp)
    (hp : ∀ x ∈ p, x.isNaN = false) (hk : k ∈ ks) (ha : p[kp]? = some a) (hb : p[k]? = some b) :
    F64.lt a b = false ∧ (k < kp → F64.lt b a = true) := by
  have hna := hp a (List.mem_of_getElem? ha)
  have hnb := hp b (List.mem_of_getElem? hb)
  have hle := h.key_le k hk
  have hlt := h.key_lt k hk
  rw [elemAt_of_getElem? ha, elemAt_of_getElem? hb] at hle hlt
  exact ⟨(lt_eq_false_iff hna hnb).2 (le_iff.2 ⟨hnb, hna, hle⟩),
    fun hkk => lt_iff.2 ⟨hnb, hna, hlt hkk⟩⟩

/-- Settles O36: by the scan's invariant `LowestPeak` over the increasing bins of the band. -/
theorem peakIsTheLowestMaximum : Obligations.PeakIsTheLowestMaximum := by
  unfold Obligations.PeakIsTheLowestMaximum
  intro s hlen hnum
  dsimp only
  have hbins : ∀ k ∈ bandBins s.cfg, (elemAt s.args.vec k).isNaN = false := fun k hk =>
    hnum _ (elemAt_mem (hlen ▸ Nat.lt_succ_of_le (mem_bandBins.1 hk).1))
  simp only [← mem_bandBins]
  refine ⟨_, exec_peakSearch s, peakSearch_eq_none_iff.trans List.eq_nil_iff_forall_not_mem,
    fun kp hkp => ?_⟩
  have hpeak := peakSearch_lowestPeak hbins hkp
  exact ⟨hpeak.mem, fun k a b hk ha hb => hpeak.lt_of_getElem? hnum hk ha hb⟩

/-! ## PARABOLIC_REFINE and ACCEPT_AND_SMOOTH -/

theorem parabolicRefine_of_inner {kp : Nat} {a b d : F64} (h1 : 1 ≤ kp) (h2 : kp + 1 ≤ c.fftSize / 2)
    (ha : p[kp - 1]? = some a) (hb : p[kp]? = some b) (hd : p[kp + 1]? = some d) :
    parabolicRefine c p kp =
      if F64.feq ((a.sub (F64.two.mul b)).add d) F64.zero then F64.zero
      else F64.clamp ((F64.half.mul (a.sub d)).div ((a.sub (F64.two.mul b)).add d))
        F64.half.neg F64.half := by
  unfold parabolicRefine
  rw [if_neg (by omega), elemAt_of_getElem? ha, elemAt_of_getElem? hb, elemAt_of_getElem? hd]

theorem parabolicRefine_of_end {kp : Nat} (h : kp < 1 ∨ c.fftSize / 2 < kp + 1) :
    parabolicRefine c p kp = F64.zero :=
  if_pos (by omega)

theorem exec_acceptAndSmooth (s : State) : exec .acceptAndSmooth s =
    .next (acceptAndSmooth s s.args.x s.args.y s.args.z) := rfl

theorem accepted_iff {peak noise : F64} : accepted c peak noise = true ↔
    F64.lt (noise.mul c.requiredSnr) peak = true ∧ F64.lt F64.thousandth peak = true :=
  Bool.and_eq_true_iff

/-- Settles O37: the two kinds of bin of PARABOLIC_REFINE, and the acceptance test. -/
theorem refineAndAcceptRun : Obligations.RefineAndAcceptRun := by
  unfold Obligations.RefineAndAcceptRun
  refine ⟨fun s a b d h1 h2 ha hb hd => ?_, fun s hend => ?_, fun s => ?_⟩
  · rw [exec_parabolicRefine, parabolicRefine_of_inner h1 h2 ha hb hd]
  · rw [exec_parabolicRefine, parabolicRefine_of_end hend]
  · dsimp only
    rw [exec_acceptAndSmooth]
    simp only [← accepted_iff]
    rfl

end Sys2Proof.Proofs

/-! SUPPORT. The threshold micro-ops HIST_PUSH, HIST_SUGGEST, PCT_TO_HL and ATH_UPDATE
(spec/44_threshold_estimation.md): the squelch test of R802 as the two comparisons it makes, and each
operation case by case. -/

namespace Sys2Proof.Proofs

open Sys2Proof Sys2Proof.Machine Sys2Proof.Laws

variable {s : State} {c : Cfg} {t : Thresh} {e : F64} {r : Suggestion}

/-! ## HIST_PUSH -/

theorem exec_histPush (s : State) : exec .histPush s =
    .next (setRet (.bool (histPush s.cfg s.thr s.args.x).2)
      { s with thr := (histPush s.cfg s.thr s.args.x).1 }) := rfl

theorem histPush_of_due (h : t.dsCount + 1 = c.dsFactor) : histPush c t e =
    ({ t with dsCount := 0, hist := ringWrite c.histCapacity t.hist e }, true) := if_pos h

theorem histPush_of_not_due (h : t.dsCount + 1 ≠ c.dsFactor) : histPush c t e =
    ({ t with dsCount := t.dsCount + 1 }, false) := if_neg h

/-! ## HIST_SUGGEST -/

theorem exec_histSuggest (s : State) : exec .histSuggest s =
    .next (setRet (.suggestion (histSuggest s).2) (histSuggest s).1) := rfl

/-- The percentile `p` of the history, sorted from R203's chronological copy (R802). -/
def histPercentile (c : Cfg) (t : Thresh) (p : F64) : F64 :=
  percentile (sortAsc (ringChrono c.histCapacity t.hist)) t.hist.fill p

theorem squelched_iff {peak noise : F64} : squelched peak noise = true ↔
    F64.lt peak (F64.oneAndHalf.mul noise) = true ∨ F64.le peak noise = true :=
  Bool.or_eq_true_iff

theorem suggestion_of_squelched
    (h : squelched (histPercentile c t F64.p95) (histPercentile c t F64.tenth) = true) :
    suggestion c t = ⟨F64.three.mul (histPercentile c t F64.tenth), histPercentile c t F64.p95,
      histPercentile c t F64.tenth, true⟩ := if_pos h

theorem suggestion_of_not_squelched
    (h : ¬ squelched (histPercentile c t F64.p95) (histPercentile c t F64.tenth) = true) :
    suggestion c t = ⟨(histPercentile c t F64.tenth).add (F64.fifth.mul
        ((histPercentile c t F64.p95).sub (histPercentile c t F64.tenth))),
      histPercentile c t F64.p95, histPercentile c t F64.tenth, false⟩ := if_neg h

theorem histSuggest_of_squelch (h : (suggestion s.cfg s.thr).squelch = true) :
    histSuggest s = (countSquelch s, suggestion s.cfg s.thr) :=
  congrArg (·, suggestion s.cfg s.thr) (if_pos h)

theorem histSuggest_of_not_squelch (h : ¬ (suggestion s.cfg s.thr).squelch = true) :
    histSuggest s = (s, suggestion s.cfg s.thr) :=
  congrArg (·, suggestion s.cfg s.thr) (if_neg h)

/-! ## PCT_TO_HL -/

theorem exec_pctToHl (s : State) : exec .pctToHl s =
    .next (setRet (.pair (pctToHl (latchedSuggestion s)).1 (pctToHl (latchedSuggestion s)).2) s) := rfl

theorem pctToHl_of_squelch (h : r.squelch = true) : pctToHl r = (r.thr, r.thr) := if_pos h

theorem pctToHl_of_not_squelch (h : ¬ r.squelch = true) : pctToHl r =
    (r.thr.add (F64.twentieth.mul (r.peak.sub r.noise)),
      r.thr.sub (F64.twentieth.mul (r.peak.sub r.noise))) := if_neg h

/-! ## ATH_UPDATE -/

theorem exec_athUpdate (s : State) : exec .athUpdate s =
    .next (setRet (.pair (athUpdate s s.args.x).2.1 (athUpdate s s.args.x).2.2)
      (athUpdate s s.args.x).1) := rfl

/-- The distance of the two levels after one envelope (R804). -/
def athRange (s : State) (e : F64) : F64 :=
  (athLevels s.cfg.athDecay s.thr e).athMax.sub (athLevels s.cfg.athDecay s.thr e).athMin

/-- The middle of the two levels after one envelope (R804). -/
def athCentre (s : State) (e : F64) : F64 :=
  (athLevels s.cfg.athDecay s.thr e).athMin.add (F64.half.mul (athRange s e))

theorem athUpdate_of_narrow (h : F64.lt (athRange s e) s.cfg.athMinRange = true) :
    athUpdate s e = (countSquelch { s with thr := athLevels s.cfg.athDecay s.thr e },
      F64.ten, F64.nine) := if_pos h

theorem athUpdate_of_wide (h : ¬ F64.lt (athRange s e) s.cfg.athMinRange = true) :
    athUpdate s e = ({ s with thr := athLevels s.cfg.athDecay s.thr e },
      (athCentre s e).add (F64.twentieth.mul (athRange s e)),
      (athCentre s e).sub (F64.twentieth.mul (athRange s e))) := if_neg h

/-- Settles O38: the two cases of each operation, by the test that its rule makes. -/
theorem thresholdOperationsRun : Obligations.ThresholdOperationsRun := by
  unfold Obligations.ThresholdOperationsRun
  refine ⟨fun s => ?push, fun s => ?suggest, fun s => ?centre, fun s => ?levels⟩
  case push =>
    rw [exec_histPush]
    by_cases hdue : s.thr.dsCount + 1 = s.cfg.dsFactor
    · rw [if_pos hdue, histPush_of_due hdue]
      rfl
    · rw [if_neg hdue, histPush_of_not_due hdue]
      rfl
  case suggest =>
    intro n v noise peak
    rw [exec_histSuggest]
    by_cases hsq : squelched peak noise = true
    · have hr := suggestion_of_squelched hsq
      rw [if_pos (squelched_iff.1 hsq), histSuggest_of_squelch (hr ▸ rfl), hr]
      rfl
    · have hr := suggestion_of_not_squelched hsq
      rw [if_neg (mt squelched_iff.2 hsq), histSuggest_of_not_squelch (hr ▸ Bool.false_ne_true), hr]
      rfl
  case centre =>
    intro thr h
    rw [exec_pctToHl]
    by_cases hflag : s.args.flag = true
    · rw [if_pos hflag, pctToHl_of_squelch hflag]
      rfl
    · rw [if_neg hflag, pctToHl_of_not_squelch hflag]
      rfl
  case levels =>
    intro e d mx mn0 mn r c h
    rw [exec_athUpdate]
    by_cases hnarrow : F64.lt r s.cfg.athMinRange = true
    · rw [if_pos hnarrow, athUpdate_of_narrow hnarrow]
      rfl
    · rw [if_neg hnarrow, athUpdate_of_wide hnarrow]
      rfl

end Sys2Proof.Proofs

/-! SUPPORT. The trigger micro-ops SCHMITT_RAW, DEBOUNCE_STEP and TRIG_STEP (spec/45_schmitt_debounce.md):
the debounce test of R902 as a comparison of integers, each operation case by case, and the debounce
property (R905) from the three stretches of a run: waiting, the commit, and rest. -/

namespace Sys2Proof.Proofs

open Sys2Proof Sys2Proof.Machine Sys2Proof.Laws

variable {c : Cfg} {t : Trigger} {raw : Bool}

/-! ## A count of samples against the debounce count -/

/-- The integers up to 2^52 are binary64 numbers. -/
theorem exists_unitsOf_eq_integer {j : Nat} (hpos : 0 < j) (hj : j ≤ 2 ^ 52) :
    ∃ m ≤ F64.infMag, unitsOf m = j * 2 ^ 1074 := by
  obtain ⟨e, he⟩ : ∃ e, e + Nat.log2 j = 52 := by
    have hlog : Nat.log2 j ≤ 52 := log2_le_of_lt_two_pow (by omega)
    exact ⟨52 - Nat.log2 j, by omega⟩
  have hlow : 2 ^ 52 ≤ j * 2 ^ e := by
    rw [← he, Nat.add_comm, pow_add]
    exact Nat.mul_le_mul_right _ (Nat.log2_self_le hpos.ne')
  have hhigh : j * 2 ^ e < 2 ^ 53 := by
    rw [show 53 = Nat.log2 j + 1 + e by omega, pow_add]
    exact Nat.mul_lt_mul_of_pos_right Nat.lt_log2_self (Nat.two_pow_pos e)
  refine ⟨(1074 - e) * 2 ^ 52 + j * 2 ^ e, ?_, ?_⟩
  · unfold F64.infMag
    omega
  · rw [unitsOf_shift hlow hhigh, mul_assoc, ← pow_add, show e + (1074 - e) = 1074 by omega]

theorem ofNat_eq_roundQ (n : Nat) : F64.ofNat n = F64.roundQ false (n * 2 ^ 1074) 1 := by
  unfold F64.ofNat
  rfl

/-- For `D` below 2^52, `D < to_f64(n)` says that the integer `n` is above `floor(D)`. Both `D` and
`floor(D) + 1` are binary64 numbers, so an `n` up to the one does not round above it, and an `n` from
the other on does not round below it. -/
theorem lt_ofNat_iff {d : F64} {n : Nat} (hfin : d.isFinite = true) (hsign : d.sign = false)
    (hd : d.units / 2 ^ 1074 < 2 ^ 52) :
    F64.lt d (F64.ofNat n) = true ↔ d.units / 2 ^ 1074 < n := by
  have hunit : 0 < 2 ^ 1074 := pow_pos two_pos 1074
  have hkey : d.key < (F64.ofNat n).key ↔ d.mag < roundMag (n * 2 ^ 1074) 1 := by
    rw [ofNat_eq_roundQ, key_of_sign hsign, key_of_sign (roundQ_sign ..), roundQ_mag, cond_false,
      cond_false, Int.ofNat_lt]
  rw [lt_iff, hkey, ofNat_eq_roundQ, and_iff_right (isNaN_eq_false_of_finite hfin),
    and_iff_right (roundQ_isNaN ..)]
  constructor
  · contrapose!
    intro hn
    refine roundMag_le one_pos ?_
    rw [← units_eq_unitsOf, mul_one]
    exact (Nat.le_div_iff_mul_le hunit).1 hn
  · intro hn
    obtain ⟨m, hm, hunits⟩ := exists_unitsOf_eq_integer (Nat.succ_pos (d.units / 2 ^ 1074)) hd
    have hdm : d.mag < m := by
      rw [← unitsOf_lt_iff, ← units_eq_unitsOf, hunits]
      exact (Nat.div_lt_iff_lt_mul hunit).1 (Nat.lt_succ_self _)
    refine hdm.trans_le (roundMag_ge one_pos hm ?_)
    rw [hunits, mul_one]
    exact Nat.mul_le_mul_right _ hn

/-! ## SCHMITT_RAW -/

theorem exec_schmittRaw (s : State) : exec .schmittRaw s =
    .next { s with ret := .bool (schmittRaw s.trig s.args.x s.args.y s.args.z) } := rfl

theorem schmittRaw_of_mark (h : t.current = true) (env high low : F64) :
    schmittRaw t env high low = !F64.lt env low := by
  unfold schmittRaw
  rw [h]
  cases F64.lt env low <;> rfl

theorem schmittRaw_of_space (h : t.current = false) (env high low : F64) :
    schmittRaw t env high low = F64.lt high env := by
  unfold schmittRaw
  rw [h]
  cases F64.lt high env <;> rfl

/-! ## DEBOUNCE_STEP -/

theorem exec_debounceStep (s : State) : exec .debounceStep s =
    .next { s with trig := (debounceStep s.cfg s.trig s.args.flag).1,
                   ret := .event (debounceStep s.cfg s.trig s.args.flag).2 } := rfl

theorem debounceStep_of_agree (h : raw = t.current) :
    debounceStep c t raw = ({ t with pending := false }, none) := if_pos h

theorem debounceStep_of_start (h : raw ≠ t.current) (hp : t.pending = false) :
    debounceStep c t raw = ({ t with pending := true, changeStart := t.total }, none) := by
  unfold debounceStep
  rw [if_neg h, hp]
  rfl

theorem debounceStep_of_commit (h : raw ≠ t.current) (hp : t.pending = true)
    (hd : F64.lt c.debounceCount (F64.ofNat (t.total - t.changeStart).toNat) = true) :
    debounceStep c t raw =
      ({ t with current := raw, stateStart := t.changeStart, pending := false },
        some ⟨t.current, durationMs c.fs (t.changeStart - t.stateStart)⟩) := by
  unfold debounceStep
  rw [if_neg h, hp, hd]
  rfl

theorem debounceStep_of_wait (h : raw ≠ t.current) (hp : t.pending = true)
    (hd : ¬ F64.lt c.debounceCount (F64.ofNat (t.total - t.changeStart).toNat) = true) :
    debounceStep c t raw = (t, none) := by
  unfold debounceStep
  rw [if_neg h, hp, if_neg hd]
  rfl

/-! ## TRIG_STEP -/

/-- Below the counter's limit TRIG_STEP is the debounce of the raw decision, and counts the sample. -/
theorem trigStep_eq (c : Cfg) (env high low : F64) (h : t.total ≠ BitVec.allOnes 64) :
    trigStep c t env high low =
      .ok ({ (debounceStep c t (schmittRaw t env high low)).1 with total := t.total + 1 },
        (debounceStep c t (schmittRaw t env high low)).2) := by
  obtain ⟨u, ev, hk⟩ := trigStep_room c env high low h
  obtain ⟨-, rfl, rfl⟩ := trigStep_ok hk
  exact hk

theorem exec_trigStep {s : State} (h : s.trig.total ≠ BitVec.allOnes 64) : exec .trigStep s =
    .next { s with
      trig := { (debounceStep s.cfg s.trig (schmittRaw s.trig s.args.x s.args.y s.args.z)).1 with
                  total := s.trig.total + 1 }
      ret := .event
        (debounceStep s.cfg s.trig (schmittRaw s.trig s.args.x s.args.y s.args.z)).2 } := by
  change execTrigStep s = _
  unfold execTrigStep
  rw [trigStep_eq _ _ _ _ h]
  rfl

/-- Settles O39: the raw decision by the committed state, the debounce by its four cases. -/
theorem triggerOperationsRun : Obligations.TriggerOperationsRun := by
  unfold Obligations.TriggerOperationsRun
  intro raw debounced
  have hraw : ∀ t env high low, schmittRaw t env high low = raw t env high low := by
    intro t env high low
    cases ht : t.current
    · rw [schmittRaw_of_space ht]
      simp [raw, ht]
    · rw [schmittRaw_of_mark ht]
      simp [raw, ht]
  have hdebounced : ∀ c t r, debounceStep c t r = debounced c t r := by
    intro c t r
    dsimp only [debounced]
    split_ifs with hagree hpending hcount
    · exact debounceStep_of_agree hagree
    · exact debounceStep_of_start hagree hpending
    · exact debounceStep_of_commit hagree (Bool.eq_true_of_not_eq_false hpending) hcount
    · exact debounceStep_of_wait hagree (Bool.eq_true_of_not_eq_false hpending) hcount
  refine ⟨fun s => ?_, fun s => ?_, fun s hroom => ?_⟩
  · rw [exec_schmittRaw, hraw]
  · rw [exec_debounceStep, hdebounced]
  · dsimp only
    rw [exec_trigStep hroom, hraw, hdebounced]

/-! ## Raw decisions along a run -/

/-- On the sample (envelope, high, low) raw disagrees with the state `b`. -/
def RawLeaves (b : Bool) (x : F64 × F64 × F64) : Prop :=
  (b = false ∧ F64.lt x.2.1 x.1 = true) ∨ (b = true ∧ F64.lt x.1 x.2.2 = true)

/-- Once `b` is left, the sample (envelope, high, low) does not lead back to it. -/
def RawStaysAway (b : Bool) (x : F64 × F64 × F64) : Prop :=
  (b = false ∧ F64.lt x.1 x.2.2 = false) ∨ (b = true ∧ F64.lt x.2.1 x.1 = false)

theorem schmittRaw_of_leaves {x : F64 × F64 × F64} (h : RawLeaves t.current x) :
    schmittRaw t x.1 x.2.1 x.2.2 = !t.current := by
  obtain ⟨hspace, hcross⟩ | ⟨hmark, hcross⟩ := h
  · rw [schmittRaw_of_space hspace, hcross, hspace, Bool.not_false]
  · rw [schmittRaw_of_mark hmark, hcross, hmark]

theorem schmittRaw_of_staysAway {x : F64 × F64 × F64} (h : RawStaysAway (!t.current) x) :
    schmittRaw t x.1 x.2.1 x.2.2 = t.current := by
  obtain ⟨hmark, hcross⟩ | ⟨hspace, hcross⟩ := h
  · rw [Bool.not_eq_false'] at hmark
    rw [schmittRaw_of_mark hmark, hcross, hmark, Bool.not_false]
  · rw [Bool.not_eq_true'] at hspace
    rw [schmittRaw_of_space hspace, hcross, hspace]

/-! ## Runs of the trigger -/

/-- A count below the limit is counted up without wrapping. -/
theorem total_succ {n : U64} (h : n.toNat + 1 < 2 ^ 64) :
    n ≠ BitVec.allOnes 64 ∧ (n + 1).toNat = n.toNat + 1 := by
  constructor
  · rintro rfl
    exact absurd h (by decide)
  · rw [BitVec.toNat_add]
    exact Nat.mod_eq_of_lt h

theorem runTrigger_cons {x : F64 × F64 × F64} {u : Trigger} {ev : Option Transition}
    (h : trigStep c t x.1 x.2.1 x.2.2 = .ok (u, ev)) (xs : List (F64 × F64 × F64)) :
    runTrigger c (x :: xs) t = (runTrigger c xs u).map fun r => (r.1, ev.toList ++ r.2) := by
  rw [runTrigger, h]

theorem runTrigger_append {xs : List (F64 × F64 × F64)} (ys : List (F64 × F64 × F64))
    {u v : Trigger} {evs evs' : List Transition} (hx : runTrigger c xs t = some (u, evs))
    (hy : runTrigger c ys u = some (v, evs')) :
    runTrigger c (xs ++ ys) t = some (v, evs ++ evs') := by
  induction xs generalizing t evs with
  | nil =>
    cases hx
    exact hy
  | cons x xs ih =>
    cases hk : trigStep c t x.1 x.2.1 x.2.2 with
    | error e =>
      rw [runTrigger, hk] at hx
      cases hx
    | ok r =>
      obtain ⟨w, ev⟩ := r
      rw [runTrigger_cons hk, Option.map_eq_some_iff] at hx
      obtain ⟨⟨u', evs1⟩, htail, heq⟩ := hx
      cases heq
      rw [List.cons_append, runTrigger_cons hk, ih htail, Option.map_some, List.append_assoc]

/-- Where the debounce answers no sample of the run and leaves the trigger as it is, the run counts the
samples and does no more. -/
theorem runTrigger_quiet {xs : List (F64 × F64 × F64)} (hroom : t.total.toNat + xs.length < 2 ^ 64)
    (hquiet : ∀ x ∈ xs, ∀ n : U64, t.total.toNat ≤ n.toNat → n.toNat < t.total.toNat + xs.length →
      debounceStep c { t with total := n } (schmittRaw { t with total := n } x.1 x.2.1 x.2.2) =
        ({ t with total := n }, none)) :
    ∃ n : U64, n.toNat = t.total.toNat + xs.length ∧
      runTrigger c xs t = some ({ t with total := n }, []) := by
  induction xs generalizing t with
  | nil => exact ⟨t.total, rfl, rfl⟩
  | cons x xs ih =>
    simp only [List.length_cons, List.forall_mem_cons] at hroom hquiet ⊢
    obtain ⟨hhead, htail⟩ := hquiet
    obtain ⟨hlimit, hsucc⟩ := total_succ (n := t.total) (by omega)
    have hstep : trigStep c t x.1 x.2.1 x.2.2 = .ok ({ t with total := t.total + 1 }, none) := by
      rw [trigStep_eq _ _ _ _ hlimit, hhead t.total le_rfl (by omega)]
    obtain ⟨n, hn, hrun⟩ := ih (t := { t with total := t.total + 1 })
      (by dsimp only; omega)
      (fun y hy m hge hlt => htail y hy m (by dsimp only at hge; omega) (by dsimp only at hlt; omega))
    refine ⟨n, by rw [hn, hsucc]; omega, ?_⟩
    rw [runTrigger_cons hstep, hrun]
    rfl

/-! ## The debounce property (R905) -/

/-- With no pending change, samples that agree with the committed state give no event. -/
theorem runTrigger_of_staysAway {xs : List (F64 × F64 × F64)} (hp : t.pending = false)
    (hxs : ∀ x ∈ xs, RawStaysAway (!t.current) x) (hroom : t.total.toNat + xs.length < 2 ^ 64) :
    ∃ n : U64, n.toNat = t.total.toNat + xs.length ∧
      runTrigger c xs t = some ({ t with total := n }, []) := by
  refine runTrigger_quiet hroom fun x hx n _ _ => ?_
  rw [schmittRaw_of_staysAway (t := { t with total := n }) (hxs x hx), debounceStep_of_agree rfl]
  dsimp only
  rw [← hp]

/-- While a change is pending, `D` is not exceeded: the samples that disagree give no event. -/
theorem runTrigger_of_leaves {xs : List (F64 × F64 × F64)} {d : Nat} (hp : t.pending = true)
    (hd : ∀ n, F64.lt c.debounceCount (F64.ofNat n) = true ↔ d < n)
    (hxs : ∀ x ∈ xs, RawLeaves t.current x) (hroom : t.total.toNat + xs.length < 2 ^ 64)
    (hle : t.changeStart.toNat ≤ t.total.toNat)
    (hwait : t.total.toNat + xs.length ≤ t.changeStart.toNat + d + 1) :
    ∃ n : U64, n.toNat = t.total.toNat + xs.length ∧
      runTrigger c xs t = some ({ t with total := n }, []) := by
  refine runTrigger_quiet hroom fun x hx n hge hlt => ?_
  rw [schmittRaw_of_leaves (t := { t with total := n }) (hxs x hx)]
  refine debounceStep_of_wait (Bool.not_ne_self _) hp ?_
  rw [hd, BitVec.toNat_sub_of_le (BitVec.le_def.2 (hle.trans hge))]
  omega

/-- The first sample that disagrees makes the change pending, and the run waits from there. -/
theorem runTrigger_pending {x : F64 × F64 × F64} {xs : List (F64 × F64 × F64)} {d : Nat}
    (hp : t.pending = false) (hd : ∀ n, F64.lt c.debounceCount (F64.ofNat n) = true ↔ d < n)
    (hx : RawLeaves t.current x) (hxs : ∀ y ∈ xs, RawLeaves t.current y)
    (hroom : t.total.toNat + (xs.length + 1) < 2 ^ 64) (hwait : xs.length ≤ d) :
    ∃ n : U64, n.toNat = t.total.toNat + (xs.length + 1) ∧ runTrigger c (x :: xs) t =
      some ({ t with pending := true, changeStart := t.total, total := n }, []) := by
  obtain ⟨hlimit, hsucc⟩ := total_succ (n := t.total) (by omega)
  have hstep : trigStep c t x.1 x.2.1 x.2.2 =
      .ok ({ t with pending := true, changeStart := t.total, total := t.total + 1 }, none) := by
    rw [trigStep_eq _ _ _ _ hlimit, schmittRaw_of_leaves hx,
      debounceStep_of_start (Bool.not_ne_self _) hp]
  obtain ⟨n, hn, hrun⟩ := runTrigger_of_leaves (c := c) (xs := xs) (d := d)
    (t := { t with pending := true, changeStart := t.total, total := t.total + 1 }) rfl hd hxs
    (by dsimp only; omega) (by dsimp only; omega) (by dsimp only; omega)
  refine ⟨n, by rw [hn, hsucc]; omega, ?_⟩
  rw [runTrigger_cons hstep, hrun]
  rfl

/-- A sample that disagrees when the pending change is older than `D` commits it. -/
theorem trigStep_of_commit {x : F64 × F64 × F64} (hlimit : t.total ≠ BitVec.allOnes 64)
    (hp : t.pending = true) (hx : RawLeaves t.current x)
    (hd : F64.lt c.debounceCount (F64.ofNat (t.total - t.changeStart).toNat) = true) :
    trigStep c t x.1 x.2.1 x.2.2 =
      .ok ({ t with current := !t.current, stateStart := t.changeStart, pending := false,
                    total := t.total + 1 },
        some ⟨t.current, durationMs c.fs (t.changeStart - t.stateStart)⟩) := by
  rw [trigStep_eq _ _ _ _ hlimit, schmittRaw_of_leaves hx,
    debounceStep_of_commit (Bool.not_ne_self _) hp hd]

/-- A run that waits for `floor(D) + 1` samples commits on the next one and rests thereafter: one event,
stamped at the first sample. -/
theorem runTrigger_commits {x y : F64 × F64 × F64} {xs ys : List (F64 × F64 × F64)}
    (hp : t.pending = false)
    (hd : ∀ n, F64.lt c.debounceCount (F64.ofNat n) = true ↔ xs.length < n)
    (hx : RawLeaves t.current x) (hxs : ∀ z ∈ xs, RawLeaves t.current z)
    (hy : RawLeaves t.current y) (hys : ∀ z ∈ ys, RawStaysAway t.current z)
    (hroom : t.total.toNat + (xs.length + ys.length + 2) < 2 ^ 64) :
    ∃ n : U64, n.toNat = t.total.toNat + (xs.length + ys.length + 2) ∧
      runTrigger c (x :: xs ++ y :: ys) t =
        some ({ current := !t.current, stateStart := t.total, total := n, pending := false,
                changeStart := t.total },
          [⟨t.current, durationMs c.fs (t.total - t.stateStart)⟩]) := by
  obtain ⟨m, hm, hwait⟩ := runTrigger_pending hp hd hx hxs (by omega) le_rfl
  obtain ⟨hlimit, hsucc⟩ := total_succ (n := m) (by omega)
  have hcount : F64.lt c.debounceCount (F64.ofNat (m - t.total).toNat) = true := by
    rw [hd, BitVec.toNat_sub_of_le (BitVec.le_def.2 (by omega))]
    omega
  have hcommit := trigStep_of_commit (c := c) (x := y)
    (t := { t with pending := true, changeStart := t.total, total := m }) hlimit rfl hy hcount
  obtain ⟨n, hn, hrest⟩ := runTrigger_of_staysAway (c := c) (xs := ys)
    (t := { current := !t.current, stateStart := t.total, total := m + 1, pending := false,
            changeStart := t.total }) rfl (by simpa using hys) (by dsimp only; omega)
  refine ⟨n, by rw [hn, hsucc]; omega, runTrigger_append _ hwait ?_⟩
  rw [runTrigger_cons hcommit, hrest]
  rfl

/-- A list of at least `n + 2` elements is a first one, `n` further ones, the next one, and the rest. -/
theorem exists_cons_append_cons {α : Type} {l : List α} {n : Nat} (h : n + 2 ≤ l.length) :
    ∃ x xs y ys, l = x :: xs ++ y :: ys ∧ xs.length = n ∧ l.drop (n + 2) = ys := by
  obtain ⟨x, l, rfl⟩ := List.exists_cons_of_length_pos (by omega : 0 < l.length)
  rw [List.length_cons] at h
  refine ⟨x, l.take n, l[n], l.drop (n + 1), ?_, List.length_take_of_le (by omega), rfl⟩
  rw [List.cons_append, List.getElem_cons_drop, List.take_append_drop]

/-- Settles O40: a run is empty, or short enough that it ends while its change is pending, or it has
`floor(D) + 1` samples of waiting before its commit. -/
theorem debounceCommitsExactlyOnce : Obligations.DebounceCommitsExactlyOnce := by
  unfold Obligations.DebounceCommitsExactlyOnce
  intro c t xs hp hfin hsign hsmall hleaves hrest hroom
  have hd := fun n => lt_ofNat_iff (n := n) hfin hsign hsmall
  generalize c.debounceCount.units / 2 ^ 1074 = d at hd hrest ⊢
  obtain hlong | hshort := le_or_gt (d + 2) xs.length
  · obtain ⟨x, pre, y, post, rfl, rfl, hpost⟩ := exists_cons_append_cons hlong
    rw [hpost] at hrest
    simp only [List.forall_mem_append, List.forall_mem_cons] at hleaves
    obtain ⟨⟨hx, hpre⟩, hy, -⟩ := hleaves
    have hlen : (x :: pre ++ y :: post).length = pre.length + post.length + 2 := by
      simp only [List.length_append, List.length_cons]
      omega
    rw [hlen] at hroom ⊢
    obtain ⟨n, hn, hrun⟩ := runTrigger_commits hp hd hx hpre hy hrest hroom
    exact ⟨_, _, hrun, hn, fun h => by omega, fun _ => ⟨rfl, rfl, rfl, rfl⟩⟩
  · cases xs with
    | nil => exact ⟨t, [], rfl, rfl, fun _ => ⟨rfl, rfl, rfl⟩, fun h => by omega⟩
    | cons x xs =>
      obtain ⟨hx, hxs⟩ := List.forall_mem_cons.1 hleaves
      rw [List.length_cons] at hshort hroom ⊢
      obtain ⟨n, hn, hrun⟩ := runTrigger_pending hp hd hx hxs hroom (by omega)
      exact ⟨_, _, hrun, hn, fun _ => ⟨rfl, rfl, rfl⟩, fun h => by omega⟩

end Sys2Proof.Proofs

/-! SUPPORT. The unit time (R1000, R1008): no operation leaves it below 10 ms. Only UNIT_FLOOR and RESET
write it, each with a value that is not below, and `exec_keepsUnitFloor` carries that to every
instruction. -/

namespace Sys2Proof.Proofs

open Sys2Proof Sys2Proof.Machine Sys2Proof.Laws

variable {i : Instr} {s t : State}

/-! ## The initial unit -/

/-- The quotient of finite positive numbers is the rounding of the exact quotient. -/
theorem div_finite_pos {a b : F64} (ha : a.isFinite = true) (hb : b.isFinite = true)
    (hasign : a.sign = false) (hbsign : b.sign = false) (hb0 : b.mag ≠ 0) :
    a.div b = F64.roundQ false (a.units * 2 ^ 1074) b.units := by
  have hzero : b.isZero = false := decide_eq_false hb0
  unfold F64.div
  rw [isNaN_eq_false_of_finite ha, isNaN_eq_false_of_finite hb, isInf_eq_false_of_finite ha,
    isInf_eq_false_of_finite hb, hzero, hasign, hbsign]
  rfl

/-- A number above zero has no sign bit and is not zero. -/
theorem sign_mag_of_pos {x : F64} (h : F64.lt F64.zero x = true) : x.sign = false ∧ x.mag ≠ 0 := by
  obtain ⟨-, -, hkey⟩ := lt_iff.1 h
  have hzero : F64.zero.key = 0 := by decide
  rw [hzero] at hkey
  unfold F64.key at hkey
  cases hs : x.sign <;> rw [hs] at hkey <;> simp only [cond_true, cond_false] at hkey
  · exact ⟨rfl, by omega⟩
  · omega

/-- 1200 ms over at most 120 words per minute is at least 10 ms, for the exact quotient is and 10 is a
binary64 number (R1000, D51). -/
theorem initialUnit_atLeastTen {wpm : F64} (hfin : wpm.isFinite = true)
    (hpos : F64.lt F64.zero wpm = true) (hmax : F64.le wpm F64.oneTwenty = true) :
    F64.lt (F64.twelveHundred.div wpm) F64.ten = false := by
  obtain ⟨hsign, hmag⟩ := sign_mag_of_pos hpos
  have hmag_le : wpm.mag ≤ F64.oneTwenty.mag := by
    obtain ⟨-, -, hkey⟩ := le_iff.1 hmax
    rw [key_of_sign hsign, key_of_sign (s := false) (by decide : F64.oneTwenty.sign = false)] at hkey
    exact Int.ofNat_le.1 hkey
  have hunits_pos : 0 < wpm.units := unitsOf_lt_iff.2 (Nat.pos_of_ne_zero hmag)
  have hexact : unitsOf F64.ten.mag * wpm.units ≤ F64.twelveHundred.units * 2 ^ 1074 :=
    calc unitsOf F64.ten.mag * wpm.units
        ≤ unitsOf F64.ten.mag * F64.oneTwenty.units := Nat.mul_le_mul_left _ (unitsOf_le_iff.2 hmag_le)
      _ = F64.twelveHundred.units * 2 ^ 1074 := by decide +kernel
  rw [div_finite_pos (by decide) hfin (by decide) hsign hmag,
    lt_eq_false_iff (roundQ_isNaN ..) (by decide), le_iff]
  refine ⟨by decide, roundQ_isNaN .., ?_⟩
  rw [key_of_sign (s := false) (by decide : F64.ten.sign = false), key_of_sign (roundQ_sign ..),
    roundQ_mag]
  exact Int.ofNat_le.2 (roundMag_ge hunits_pos (by decide) hexact)

/-! ## UNIT_FLOOR and the operations that run it -/

theorem unitFloor_atLeastTen (s : State) : UnitAtLeastTen (unitFloor s) := by
  unfold unitFloor
  split
  · show F64.lt F64.sixty F64.ten = false
    decide
  · next h => exact Bool.eq_false_iff.2 h

theorem wpmUpdate_atLeastTen (s : State) (d : F64) : UnitAtLeastTen (wpmUpdate s d) :=
  unitFloor_atLeastTen _

/-- The unit is not below 10 ms in `t` if it is not in `s`. -/
def KeepsUnitFloor (s t : State) : Prop := UnitAtLeastTen s → UnitAtLeastTen t

theorem KeepsUnitFloor.trans {u : State} (h : KeepsUnitFloor s t) (k : KeepsUnitFloor t u) :
    KeepsUnitFloor s u := k ∘ h

theorem keepsUnitFloor_of_unit_eq (h : t.sym.unitTimeMs = s.sym.unitTimeMs) : KeepsUnitFloor s t := by
  unfold KeepsUnitFloor UnitAtLeastTen
  rw [h]
  exact id

theorem keepsUnitFloor_of_sym_eq (h : t.sym = s.sym) : KeepsUnitFloor s t :=
  keepsUnitFloor_of_unit_eq (by rw [h])

theorem settleMark_keepsUnitFloor (h : settleMark s = .ok t) : KeepsUnitFloor s t := by
  unfold settleMark at h
  split at h
  · split at h
    · intro _
      rw [pushPulse_ok h]
      exact wpmUpdate_atLeastTen ..
    · cases h
      exact keepsUnitFloor_of_unit_eq (by rw [foldGlitch_frame])
  · cases h
    exact keepsUnitFloor_of_unit_eq rfl

theorem settleGap_keepsUnitFloor (h : settleGap s = .ok t) : KeepsUnitFloor s t :=
  keepsUnitFloor_of_unit_eq (by rw [settleGap_frame h])

theorem symMarkEnd_keepsUnitFloor {d : F64} (h : symMarkEnd s d = .ok t) : KeepsUnitFloor s t := by
  unfold symMarkEnd at h
  split at h
  · cases h
    exact keepsUnitFloor_of_unit_eq rfl
  · split at h
    · cases h
    · next hmark =>
      split at h
      · cases h
      · next hgap =>
        cases h
        exact (settleMark_keepsUnitFloor hmark).trans
          ((settleGap_keepsUnitFloor hgap).trans (keepsUnitFloor_of_unit_eq rfl))

theorem symFlush_keepsUnitFloor (h : symFlush s = .ok t) : KeepsUnitFloor s t := by
  unfold symFlush at h
  split at h
  · split at h
    · cases h
    · next hmark =>
      cases h
      exact (settleMark_keepsUnitFloor hmark).trans
        (keepsUnitFloor_of_unit_eq (by rw [decodeBuffer_frame]))
  · cases h
    exact keepsUnitFloor_of_unit_eq rfl

/-! ## Stages and the rules of the commands -/

theorem symbolStage_keepsUnitFloor {ev : Transition} (h : symbolStage s ev = .ok t) :
    KeepsUnitFloor s t := by
  unfold symbolStage at h
  split at h
  · split at h
    · cases h
    · next hmark =>
      cases h
      exact (symMarkEnd_keepsUnitFloor hmark).trans (keepsUnitFloor_of_sym_eq (emit_sym _))
  · cases h
    exact keepsUnitFloor_of_unit_eq rfl

theorem envStage_keepsUnitFloor {e : F64} (h : envStage s e = .ok t) : KeepsUnitFloor s t := by
  have hsym : (thresholdStage s e).sym = s.sym := by rw [thresholdStage_frame]
  unfold envStage at h
  dsimp only at h
  split at h
  · cases h
  · cases h
    exact keepsUnitFloor_of_sym_eq hsym
  · next tr ev _ =>
    have htrig : KeepsUnitFloor s { thresholdStage s e with trig := tr } :=
      keepsUnitFloor_of_sym_eq hsym
    exact htrig.trans (symbolStage_keepsUnitFloor h)

theorem sampleBody_keepsUnitFloor {p : F32} (h : sampleBody p s = .ok t) : KeepsUnitFloor s t := by
  unfold sampleBody at h
  split at h
  · cases h
  · split at h
    · cases h
    · next hpush =>
      exact KeepsUnitFloor.trans (keepsUnitFloor_of_sym_eq (by rw [pushSample_ok hpush]))
        (envStage_keepsUnitFloor h)

theorem injectEnvBody_keepsUnitFloor {p : F32} (h : injectEnvBody p s = .ok t) :
    KeepsUnitFloor s t := by
  unfold injectEnvBody at h
  split at h
  · cases h
  · exact envStage_keepsUnitFloor h

theorem injectTransitionBody_keepsUnitFloor {f : Bool} {p : F32}
    (h : injectTransitionBody f p s = .ok t) : KeepsUnitFloor s t := by
  unfold injectTransitionBody at h
  split at h
  · cases h
  · exact symbolStage_keepsUnitFloor h

theorem flushBody_keepsUnitFloor (h : flushBody s = .ok t) : KeepsUnitFloor s t := by
  unfold flushBody at h
  split at h
  · cases h
  · next hflush =>
    cases h
    exact (symFlush_keepsUnitFloor hflush).trans (keepsUnitFloor_of_unit_eq rfl)

/-- A RESET that succeeds has checked that `initial_wpm` is in (0, 120] (R7, R1000). -/
theorem resetBody_atLeastTen {r : CfgRecord} (h : resetBody r s = .ok t) : UnitAtLeastTen t := by
  obtain ⟨m, hvalid, rfl⟩ := resetBody_ok h
  obtain ⟨-, -, hparams, -⟩ := validate_ok_iff.1 hvalid
  obtain ⟨-, -, -, -, hsymbol⟩ := paramsOk_iff.1 hparams
  obtain ⟨⟨hfin, hpos, hmax⟩, -⟩ := symbolParamsOk_iff.1 hsymbol
  exact initialUnit_atLeastTen hfin hpos hmax

/-! ## Instructions and steps -/

/-- A command that does not run its rule to the end leaves the symbol buffer as it is. -/
theorem runCommand_keepsUnitFloor {op : BitVec 8} {body : State → Except FaultCode State}
    (h : runCommand op body s = .next t) (hbody : ∀ u, body s = .ok u → KeepsUnitFloor s u) :
    KeepsUnitFloor s t := by
  obtain ⟨-, u, hu, rfl⟩ | ⟨-, -, -, rfl⟩ | ⟨-, -, rfl⟩ | ⟨-, -, rfl⟩ := runCommand_cases h
  · exact (hbody u hu).trans (keepsUnitFloor_of_sym_eq (bumpPc_sym u))
  · exact keepsUnitFloor_of_sym_eq (takeFault_sym ..)
  · exact keepsUnitFloor_of_sym_eq (bumpPc_sym s)
  · exact keepsUnitFloor_of_sym_eq (takeFault_sym ..)

theorem runMicroOp_keepsUnitFloor {r : Except FaultCode State} (h : runMicroOp r s = .next t)
    (hrule : ∀ u, r = .ok u → KeepsUnitFloor s u) : KeepsUnitFloor s t := by
  obtain hok | ⟨-, -, -, rfl⟩ | ⟨-, -, -, rfl⟩ := runMicroOp_cases h
  · exact hrule t hok
  · exact keepsUnitFloor_of_sym_eq rfl
  · exact keepsUnitFloor_of_sym_eq (takeFault_sym ..)

theorem next_keepsUnitFloor {u : State}
    (h : (.next u : Host.Outcome State Fault Refusal) = .next t) (hu : u.sym = s.sym) :
    KeepsUnitFloor s t := by
  cases h
  exact keepsUnitFloor_of_sym_eq hu

theorem execReset_keepsUnitFloor (h : exec .reset s = .next t) : KeepsUnitFloor s t := by
  rw [exec_reset] at h
  exact (keepsUnitFloor_of_sym_eq (takeRecord_sym s)).trans
    (runCommand_keepsUnitFloor h fun u hu _ => resetBody_atLeastTen hu)

theorem execBiquadStep_sym (h : execBiquadStep s = .next t) : t.sym = s.sym := by
  unfold execBiquadStep at h
  dsimp only at h
  split at h <;> cases h <;> rfl

/-- A monitor step writes nothing where it is not enabled (R421). -/
theorem monitorStep_sym {f : State → State} (hf : (f s).sym = s.sym) :
    (if monitorEnabled s then f s else s).sym = s.sym := by
  split
  · exact hf
  · rfl

theorem execTrigStep_keepsUnitFloor (h : execTrigStep s = .next t) : KeepsUnitFloor s t := by
  refine runMicroOp_keepsUnitFloor h fun u hu => ?_
  split at hu <;> cases hu
  exact keepsUnitFloor_of_sym_eq rfl

theorem execLmLoad_keepsUnitFloor (h : execLmLoad s = .next t) : KeepsUnitFloor s t := by
  refine runMicroOp_keepsUnitFloor h fun u hu => ?_
  split at hu <;> cases hu
  exact keepsUnitFloor_of_sym_eq rfl

/-- Every instruction keeps the unit at 10 ms or more. The operations that settle a mark run UNIT_FLOOR,
RESET checks the initial unit, and every other instruction leaves the unit as it is. -/
theorem exec_keepsUnitFloor (h : exec i s = .next t) : KeepsUnitFloor s t := by
  cases i with
  | reset => exact execReset_keepsUnitFloor h
  | sample p => exact runCommand_keepsUnitFloor h fun _ hu => sampleBody_keepsUnitFloor hu
  | flush => exact runCommand_keepsUnitFloor h fun _ hu => flushBody_keepsUnitFloor hu
  | injectEnv p => exact runCommand_keepsUnitFloor h fun _ hu => injectEnvBody_keepsUnitFloor hu
  | injectTransition f p =>
    exact runCommand_keepsUnitFloor h fun _ hu => injectTransitionBody_keepsUnitFloor hu
  | symMarkEnd => exact runMicroOp_keepsUnitFloor h fun _ hu => symMarkEnd_keepsUnitFloor hu
  | symFlush => exact runMicroOp_keepsUnitFloor h fun _ hu => symFlush_keepsUnitFloor hu
  | settleMark => exact runMicroOp_keepsUnitFloor h fun _ hu => settleMark_keepsUnitFloor hu
  | settleGap => exact runMicroOp_keepsUnitFloor h fun _ hu => settleGap_keepsUnitFloor hu
  | envStage => exact runMicroOp_keepsUnitFloor h fun _ hu => envStage_keepsUnitFloor hu
  | symbolStage => exact runMicroOp_keepsUnitFloor h fun _ hu => symbolStage_keepsUnitFloor hu
  | wpmUpdate =>
    cases h
    exact fun _ => wpmUpdate_atLeastTen ..
  | symGapEnd =>
    cases h
    exact keepsUnitFloor_of_unit_eq rfl
  | statsPush =>
    cases h
    exact keepsUnitFloor_of_unit_eq rfl
  | nop =>
    rw [exec_nop_eq] at h
    exact next_keepsUnitFloor h rfl
  | readStatus =>
    rw [exec_readStatus_eq] at h
    exact next_keepsUnitFloor h rfl
  | readResult =>
    rw [exec_readResult] at h
    exact runCommand_keepsUnitFloor h fun _ hu => by cases hu; exact keepsUnitFloor_of_sym_eq rfl
  | chunkEnd =>
    rw [exec_chunkEnd] at h
    refine runCommand_keepsUnitFloor h fun u hu => keepsUnitFloor_of_sym_eq ?_
    rw [← Except.ok.inj hu, chunkEndBody_frame]
  | setTargetFreq p =>
    exact runCommand_keepsUnitFloor h fun _ hu =>
      keepsUnitFloor_of_sym_eq (by rw [setTargetFreqBody_frame hu])
  | biquadStep => exact keepsUnitFloor_of_sym_eq (execBiquadStep_sym h)
  | monEnqueue => exact next_keepsUnitFloor h (by rw [monEnqueue_frame])
  | monDequeue => exact next_keepsUnitFloor h (monitorStep_sym (by rw [monDequeue_frame]))
  | monTick => exact next_keepsUnitFloor h (monitorStep_sym (by rw [monTick_frame]))
  | acceptAndSmooth => exact next_keepsUnitFloor h (by rw [acceptAndSmooth_frame])
  | histSuggest => exact next_keepsUnitFloor h (by rw [setRet_sym, histSuggest_frame])
  | athUpdate => exact next_keepsUnitFloor h (by rw [setRet_sym, athUpdate_frame])
  | trigStep => exact execTrigStep_keepsUnitFloor h
  | beamStep => exact next_keepsUnitFloor h (by rw [beamStep_frame])
  | lmLoad => exact execLmLoad_keepsUnitFloor h
  | _ => exact next_keepsUnitFloor h rfl

theorem illegalCommand_sym (op : BitVec 8) (s : State) : (illegalCommand op s).sym = s.sym := by
  unfold illegalCommand
  split
  · exact bumpPc_sym s
  · exact takeFault_sym ..

/-- Settles O58: a step waits, refuses or faults an illegal word, or runs an instruction, and none of
these leaves the unit below 10 ms where it was not. -/
theorem stepKeepsUnitFloor : Obligations.StepKeepsUnitFloor := by
  unfold Obligations.StepKeepsUnitFloor
  intro s t hs h
  obtain ⟨port, turns, rfl | ⟨op, rfl⟩ | ⟨i, hi⟩⟩ := step_cases h
  · exact hs
  · exact keepsUnitFloor_of_sym_eq (illegalCommand_sym op _) hs
  · exact exec_keepsUnitFloor hi hs

end Sys2Proof.Proofs

/-! SUPPORT. The symbol-timing and analyzer micro-ops (spec/46_symbol_timing.md): each operation case by
case, with the pulse buffer's room where a pulse is appended (R206), and glitch invariance (R1012). -/

namespace Sys2Proof.Proofs

open Sys2Proof Sys2Proof.Machine Sys2Proof.Laws

variable {s u : State} {d : F64}

/-! ## SYM_GAP_END and STATS_PUSH -/

theorem exec_symGapEnd (s : State) : exec .symGapEnd s = .next (symGapEnd s s.args.x) := rfl

theorem exec_statsPush (s : State) : exec .statsPush s =
    .next { s with sym := { s.sym with stats := statsPush s.cfg s.sym.stats s.args.x } } := rfl

/-- Settles O41: the gap is added as the model adds it, and STATS_PUSH is R203's write. -/
theorem gapEndAndStatsPushRun : Obligations.GapEndAndStatsPushRun := by
  unfold Obligations.GapEndAndStatsPushRun
  refine ⟨fun s => ?_, fun s => ?_⟩
  · rw [exec_symGapEnd]
    rfl
  · rw [exec_statsPush]
    rfl

/-! ## STATS_ANALYZE -/

theorem exec_statsAnalyze (s : State) : exec .statsAnalyze s =
    .next (setRet (.analysis (statsAnalyze s.cfg s.sym.stats)) s) := rfl

/-- The sorted window (R1010). -/
def sortedWindow (c : Cfg) (r : Ring) : List F64 := sortAsc (r.buf.take c.statsWindowSize)

/-- The statistics of a sorted window split after the element `bi` (R1010). -/
def splitAnalysis (v : List F64) (bi : Nat) : Analysis :=
  { optimalThreshold := ((elemAt v bi).add (elemAt v (bi + 1))).div F64.two
    ditMean := meanOf (v.take (bi + 1))
    ditStddev := stddevOf (v.take (bi + 1))
    dahMean := meanOf (v.drop (bi + 1))
    dahStddev := stddevOf (v.drop (bi + 1))
    confidence := (F64.one.sub
      ((((stddevOf (v.take (bi + 1))).div (meanOf (v.take (bi + 1)))).add
        ((stddevOf (v.drop (bi + 1))).div (meanOf (v.drop (bi + 1))))).div F64.two)).max F64.tenth }

variable {c : Cfg} {r : Ring} {best : F64} {bi : Nat}

theorem statsAnalyze_of_partial (h : r.fill < c.statsWindowSize) : statsAnalyze c r = none := if_pos h

theorem statsAnalyze_of_noGap (h : ¬ r.fill < c.statsWindowSize)
    (hscan : largestGap (sortedWindow c r) (centralIndices c.statsWindowSize) = (best, none)) :
    statsAnalyze c r = none := by
  unfold sortedWindow at hscan
  unfold statsAnalyze
  simp only [if_neg h, hscan]

theorem statsAnalyze_of_smallGap (h : ¬ r.fill < c.statsWindowSize)
    (hscan : largestGap (sortedWindow c r) (centralIndices c.statsWindowSize) = (best, some bi))
    (hbest : F64.lt best F64.twenty = true) : statsAnalyze c r = none := by
  unfold sortedWindow at hscan
  unfold statsAnalyze
  simp only [if_neg h, hscan, if_pos hbest]

theorem statsAnalyze_of_split (h : ¬ r.fill < c.statsWindowSize)
    (hscan : largestGap (sortedWindow c r) (centralIndices c.statsWindowSize) = (best, some bi))
    (hbest : ¬ F64.lt best F64.twenty = true) :
    statsAnalyze c r = some (splitAnalysis (sortedWindow c r) bi) := by
  unfold sortedWindow at hscan
  unfold statsAnalyze
  simp only [if_neg h, hscan, if_neg hbest]
  rfl

/-- Settles O45: a window that is not full, no central gap, a gap below 20 ms, and the split. -/
theorem statsAnalyzeRuns : Obligations.StatsAnalyzeRuns := by
  unfold Obligations.StatsAnalyzeRuns
  intro s w v lo hi scan mean sd
  rw [exec_statsAnalyze]
  by_cases hfull : s.sym.stats.fill < w
  · rw [if_pos hfull, statsAnalyze_of_partial hfull]
    rfl
  rw [if_neg hfull]
  have hlargest : largestGap (sortedWindow s.cfg s.sym.stats) (centralIndices w) = scan := rfl
  rcases hscan : scan with ⟨best, _ | bi⟩
  · rw [statsAnalyze_of_noGap hfull (hlargest.trans hscan)]
    rfl
  dsimp only
  by_cases hbest : F64.lt best F64.twenty = true
  · rw [if_pos hbest, statsAnalyze_of_smallGap hfull (hlargest.trans hscan) hbest]
    rfl
  · rw [if_neg hbest, statsAnalyze_of_split hfull (hlargest.trans hscan) hbest]
    rfl

/-! ## WPM_UPDATE -/

theorem exec_wpmUpdate (s : State) : exec .wpmUpdate s = .next (wpmUpdate s s.args.x) := rfl

theorem unitFloor_of_below (h : F64.lt s.sym.unitTimeMs F64.ten = true) :
    unitFloor s = countUnitReset { s with sym := { s.sym with unitTimeMs := F64.sixty } } := if_pos h

theorem unitFloor_of_not_below (h : ¬ F64.lt s.sym.unitTimeMs F64.ten = true) : unitFloor s = s :=
  if_neg h

/-- The window after the mark `d` (R1007). -/
def pushedWindow (s : State) (d : F64) : Ring := statsPush s.cfg s.sym.stats d

/-- The unit that the mark `d` gives, before UNIT_FLOOR (R1007). -/
def markUnit (s : State) (d : F64) : F64 :=
  adaptedUnit (updateRate s.cfg (statsAnalyze s.cfg (pushedWindow s d))) s.sym.unitTimeMs
    (sampleUnit (statsAnalyze s.cfg (pushedWindow s d)) s.sym.unitTimeMs d)

theorem wpmUpdate_eq_unitFloor (s : State) (d : F64) : wpmUpdate s d = unitFloor
    { s with sym := { s.sym with stats := pushedWindow s d, unitTimeMs := markUnit s d } } := rfl

theorem wpmUpdate_of_below {unit : F64} (hunit : markUnit s d = unit)
    (h : F64.lt unit F64.ten = true) : wpmUpdate s d = countUnitReset
    { s with sym := { s.sym with stats := pushedWindow s d, unitTimeMs := F64.sixty } } := by
  rw [wpmUpdate_eq_unitFloor, hunit, unitFloor_of_below h]

theorem wpmUpdate_of_not_below {unit : F64} (hunit : markUnit s d = unit)
    (h : ¬ F64.lt unit F64.ten = true) : wpmUpdate s d =
    { s with sym := { s.sym with stats := pushedWindow s d, unitTimeMs := unit } } := by
  rw [wpmUpdate_eq_unitFloor, hunit, unitFloor_of_not_below h]

/-- A sample unit inside the band moves the unit, one outside leaves it. -/
theorem adaptedUnit_eq (a unit su : F64) : adaptedUnit a unit su =
    if F64.le (F64.half.mul unit) su = true ∧ F64.le su (F64.oneAndHalf.mul unit) = true
    then (a.mul su).add ((F64.one.sub a).mul unit) else unit := by
  unfold adaptedUnit
  simp only [Bool.and_eq_true]

/-- Settles O44: the unit after the mark is the model's, and UNIT_FLOOR has its two cases. -/
theorem wpmUpdateRuns : Obligations.WpmUpdateRuns := by
  unfold Obligations.WpmUpdateRuns
  intro s d unit ring
  generalize hanalysis : statsAnalyze s.cfg ring = analysis
  intro st thr su a u
  have hwindow : pushedWindow s d = ring := rfl
  have hrate : updateRate s.cfg analysis = a := rfl
  have hsample : sampleUnit analysis unit d = su := rfl
  have hunit : markUnit s d = u := by
    rw [markUnit, hwindow, hanalysis, hrate, hsample, adaptedUnit_eq]
  rw [exec_wpmUpdate]
  by_cases hlow : F64.lt u F64.ten = true
  · rw [if_pos hlow, wpmUpdate_of_below hunit hlow]
    rfl
  · rw [if_neg hlow, wpmUpdate_of_not_below hunit hlow]
    rfl

/-! ## SETTLE_MARK -/

theorem exec_settleMark (s : State) : exec .settleMark s = runMicroOp (settleMark s) s := rfl

theorem settleMark_of_noMark (h : ¬ F64.lt F64.zero s.sym.pendingMarkMs = true) :
    settleMark s = .ok s := if_neg h

theorem settleMark_of_glitch (h : F64.lt F64.zero s.sym.pendingMarkMs = true)
    (hglitch : ¬ F64.lt s.cfg.glitchThresholdMs s.sym.pendingMarkMs = true) :
    settleMark s = .ok { s with sym := foldGlitch s.sym } :=
  (if_pos h).trans (if_neg hglitch)

/-- The state after a real mark: its pulse is in the unit that the mark itself updates (R1003). -/
def markSettled (s : State) : State :=
  { wpmUpdate s s.sym.pendingMarkMs with
    sym := { (wpmUpdate s s.sym.pendingMarkMs).sym with
      pulseBuf := s.sym.pulseBuf ++ [s.sym.pendingMarkMs.div
        (wpmUpdate s s.sym.pendingMarkMs).sym.unitTimeMs] } }

theorem settleMark_of_mark (h : F64.lt F64.zero s.sym.pendingMarkMs = true)
    (hreal : F64.lt s.cfg.glitchThresholdMs s.sym.pendingMarkMs = true) (hroom : ¬ PulseBufFull s) :
    settleMark s = .ok (markSettled s) := by
  have hmark : (wpmUpdate s s.sym.pendingMarkMs).sym.pendingMarkMs = s.sym.pendingMarkMs := by
    rw [wpmUpdate_frame]
  have hbuf : (wpmUpdate s s.sym.pendingMarkMs).sym.pulseBuf = s.sym.pulseBuf := by
    rw [wpmUpdate_frame]
  have hroom' : ¬ PulseBufFull (wpmUpdate s s.sym.pendingMarkMs) := by
    rw [wpmUpdate_frame]
    exact hroom
  refine (if_pos h).trans ((if_pos hreal).trans ((pushPulse_room _ hroom').trans ?_))
  rw [hmark, hbuf, markSettled]

theorem exec_settleMark_of_mark (h : F64.lt F64.zero s.sym.pendingMarkMs = true)
    (hreal : F64.lt s.cfg.glitchThresholdMs s.sym.pendingMarkMs = true) (hroom : ¬ PulseBufFull s) :
    exec .settleMark s = .next (markSettled s) := by
  rw [exec_settleMark, settleMark_of_mark h hreal hroom]
  rfl

/-- A buffer of even length that is not empty ends in a gap, which goes back with the glitch. -/
theorem foldGlitch_of_gap {y : Symbols} (h : 0 < y.pulseBuf.length ∧ y.pulseBuf.length % 2 = 0) :
    foldGlitch y = { y with
      pulseBuf := y.pulseBuf.dropLast
      lastGapMs := (y.lastGapMs.add ((y.pulseBuf.getLast (List.ne_nil_of_length_pos h.1)).mul
        y.unitTimeMs)).add y.pendingMarkMs } := by
  unfold foldGlitch
  rw [List.getLast?_eq_some_getLast (List.ne_nil_of_length_pos h.1)]
  exact if_pos h.2

theorem foldGlitch_of_noGap {y : Symbols} (h : ¬ (0 < y.pulseBuf.length ∧ y.pulseBuf.length % 2 = 0)) :
    foldGlitch y = { y with lastGapMs := y.lastGapMs.add y.pendingMarkMs } := by
  unfold foldGlitch
  split
  · next g hg =>
    have hne : y.pulseBuf ≠ [] := by
      rintro he
      rw [he] at hg
      cases hg
    exact if_neg fun heven => h ⟨List.length_pos_iff.2 hne, heven⟩
  · rfl

/-! ## SETTLE_GAP -/

theorem exec_settleGap (s : State) : exec .settleGap s = runMicroOp (settleGap s) s := rfl

theorem decodeBuffer_eq (s : State) : decodeBuffer s =
    if s.sym.pulseBuf = [] then s
    else { beamStep s s.sym.pulseBuf with sym := { s.sym with pulseBuf := [] } } := by
  unfold decodeBuffer
  dsimp only
  rw [beamStep_frame]

/-- The gap is a character boundary (R1004). -/
abbrev GapEndsChar (s : State) : Prop :=
  F64.lt (s.sym.unitTimeMs.mul s.cfg.charGapRatio) s.sym.lastGapMs = true

/-- The gap is a word boundary (R1004). -/
abbrev GapEndsWord (s : State) : Prop :=
  F64.lt (s.sym.unitTimeMs.mul s.cfg.wordGapRatio) s.sym.lastGapMs = true

theorem settleGap_of_boundary (h : GapEndsChar s) : settleGap s =
    .ok (if GapEndsWord s then beamInjectSpace (decodeBuffer s) else decodeBuffer s) := by
  have hcfg : (decodeBuffer s).cfg = s.cfg := by rw [decodeBuffer_frame]
  have hunit : (decodeBuffer s).sym.unitTimeMs = s.sym.unitTimeMs := by rw [decodeBuffer_frame]
  have hgap : (decodeBuffer s).sym.lastGapMs = s.sym.lastGapMs := by rw [decodeBuffer_frame]
  unfold settleGap
  dsimp only
  rw [if_pos h, hcfg, hunit, hgap]
  split <;> rfl

theorem settleGap_of_gap (h : ¬ GapEndsChar s)
    (hgap : F64.lt F64.zero s.sym.lastGapMs = true ∧ 1 ≤ s.sym.pulseBuf.length)
    (hroom : ¬ PulseBufFull s) : settleGap s =
    .ok { s with sym := { s.sym with pulseBuf :=
      s.sym.pulseBuf ++ [s.sym.lastGapMs.div s.sym.unitTimeMs] } } := by
  unfold settleGap
  rw [if_neg h, if_pos (by rwa [Bool.and_eq_true, decide_eq_true_eq])]
  exact pushPulse_room _ hroom

theorem settleGap_of_noGap (h : ¬ GapEndsChar s)
    (hgap : ¬ (F64.lt F64.zero s.sym.lastGapMs = true ∧ 1 ≤ s.sym.pulseBuf.length)) :
    settleGap s = .ok s := by
  unfold settleGap
  rw [if_neg h, if_neg (by rwa [Bool.and_eq_true, decide_eq_true_eq])]

/-- Settles O43: no mark, a real mark, and a glitch after a gap or not; a boundary, a gap that is
appended, and none. -/
theorem settleMarkAndGapRun : Obligations.SettleMarkAndGapRun := by
  unfold Obligations.SettleMarkAndGapRun
  intro s
  refine ⟨fun hroom => ?mark, fun hroom => ?gap⟩
  case mark =>
    by_cases hmark : F64.lt F64.zero s.sym.pendingMarkMs = true
    · rw [if_pos hmark]
      by_cases hreal : F64.lt s.cfg.glitchThresholdMs s.sym.pendingMarkMs = true
      · rw [if_pos hreal]
        exact exec_settleMark_of_mark hmark hreal fun hfull => hroom ⟨hmark, hreal, hfull⟩
      · rw [if_neg hreal, exec_settleMark, settleMark_of_glitch hmark hreal]
        by_cases hends : 0 < s.sym.pulseBuf.length ∧ s.sym.pulseBuf.length % 2 = 0
        · rw [dif_pos hends, foldGlitch_of_gap hends]
          rfl
        · rw [dif_neg hends, foldGlitch_of_noGap hends]
          rfl
    · rw [if_neg hmark, exec_settleMark, settleMark_of_noMark hmark]
      rfl
  case gap =>
    rw [exec_settleGap]
    by_cases hchar : GapEndsChar s
    · rw [if_pos hchar, settleGap_of_boundary hchar, decodeBuffer_eq]
      rfl
    · rw [if_neg hchar]
      by_cases hgap : F64.lt F64.zero s.sym.lastGapMs = true ∧ 1 ≤ s.sym.pulseBuf.length
      · rw [if_pos hgap, settleGap_of_gap hchar hgap fun hfull => hroom
          ⟨Bool.eq_false_iff.2 hchar, hgap.1, List.ne_nil_of_length_pos hgap.2, hfull⟩]
        rfl
      · rw [if_neg hgap, settleGap_of_noGap hchar hgap]
        rfl

/-! ## SYM_MARK_END and SYM_FLUSH -/

theorem exec_symMarkEnd (s : State) :
    exec .symMarkEnd s = runMicroOp (symMarkEnd s s.args.x) s := rfl

theorem exec_symFlush (s : State) : exec .symFlush s = runMicroOp (symFlush s) s := rfl

/-- The gap is shorter than the glitch threshold (R1002). -/
abbrev GapIsGlitch (s : State) : Prop :=
  F64.lt F64.zero s.sym.lastGapMs = true ∧ F64.lt s.sym.lastGapMs s.cfg.glitchThresholdMs = true

theorem stitches_iff : stitches s = true ↔ GapIsGlitch s := Bool.and_eq_true_iff

theorem symMarkEnd_of_stitch (h : GapIsGlitch s) (d : F64) : symMarkEnd s d =
    .ok { s with sym := { s.sym with
      pendingMarkMs := s.sym.pendingMarkMs.add (s.sym.lastGapMs.add d)
      lastGapMs := F64.zero } } :=
  if_pos (stitches_iff.2 h)

theorem symMarkEnd_of_settle {v : State} (h : ¬ GapIsGlitch s) (hmark : settleMark s = .ok u)
    (hgap : settleGap u = .ok v) (d : F64) : symMarkEnd s d = .ok (stageMark v d) := by
  unfold symMarkEnd
  rw [if_neg (mt stitches_iff.1 h), hmark]
  dsimp only
  rw [hgap]

/-- Where SYM_MARK_END does not stitch and does not overflow, both settlements run. -/
theorem settle_room (h : ¬ GapIsGlitch s) (hroom : ¬ MarkEndOverflows s) :
    ∃ u v, settleMark s = .ok u ∧ settleGap u = .ok v := by
  obtain ⟨u, hu⟩ := settleMark_room fun hover => hroom ⟨h, .inl hover⟩
  obtain ⟨v, hv⟩ := settleGap_room fun hover => hroom ⟨h, .inr ⟨u, hu, hover⟩⟩
  exact ⟨u, v, hu, hv⟩

theorem symFlush_of_noMark (h : ¬ F64.lt F64.zero s.sym.pendingMarkMs = true) :
    symFlush s = .ok s := if_neg h

theorem symFlush_of_mark (h : F64.lt F64.zero s.sym.pendingMarkMs = true)
    (hmark : settleMark s = .ok u) : symFlush s =
    .ok (decodeBuffer { u with sym := { u.sym with pendingMarkMs := F64.zero } }) := by
  unfold symFlush
  rw [if_pos h, hmark]

/-- Settles O42: SYM_MARK_END stitches, or settles and stages; SYM_FLUSH finds a pending mark or none. -/
theorem markEndAndFlushRun : Obligations.MarkEndAndFlushRun := by
  unfold Obligations.MarkEndAndFlushRun
  intro s
  rw [exec_symMarkEnd, exec_symFlush]
  refine ⟨fun hglitch => ?stitch, fun hglitch hroom => ?settle, fun hmark => ?rest,
    fun hmark hroom => ?flush⟩
  case stitch =>
    rw [symMarkEnd_of_stitch hglitch]
    rfl
  case settle =>
    obtain ⟨s1, s2, hmark, hgap⟩ := settle_room hglitch hroom
    refine ⟨s1, s2, hmark, hgap, ?_⟩
    rw [symMarkEnd_of_settle hglitch hmark hgap]
    rfl
  case rest =>
    rw [symFlush_of_noMark (Bool.eq_false_iff.1 hmark)]
    rfl
  case flush =>
    obtain ⟨s1, hs1⟩ := settleMark_room hroom
    refine ⟨s1, hs1, ?_⟩
    rw [symFlush_of_mark hmark hs1]
    rfl

/-! ## Glitch invariance (R1012) -/

theorem lt_transitive {a b c : F64} (h : F64.lt a b = true) (k : F64.lt b c = true) :
    F64.lt a c = true := by
  obtain ⟨ha, -, hab⟩ := lt_iff.1 h
  obtain ⟨-, hc, hbc⟩ := lt_iff.1 k
  exact lt_iff.2 ⟨ha, hc, hab.trans hbc⟩

/-- Adding a finite number above zero to 0.0 is exact. -/
theorem zero_add_of_pos {x : F64} (hfin : x.isFinite = true) (hpos : F64.lt F64.zero x = true) :
    F64.zero.add x = x := by
  have hzero : F64.zero.toInt = 0 := by decide
  have hne : x.toInt ≠ 0 := by
    have hlt : F64.zero.toInt < x.toInt := toInt_lt_iff.2 (lt_iff.1 hpos).2.2
    omega
  rw [add_finite (by decide) hfin, hzero, Int.zero_add, roundInt_toInt hfin hne]

theorem emitText_paths (dec : Decoder) : (emitText dec).paths = dec.paths := by rw [emitText_frame]

/-- INJECT_TRANSITION of a gap in a running block (R412, R1001). -/
theorem exec_injectTransition_gap {p : F32} (hl : s.life = .running)
    (hfin : (F64.ofF32 p).isFinite = true) (hneg : F64.lt (F64.ofF32 p) F64.zero = false) :
    exec (.injectTransition false p) s = .next (bumpPc (emit (symGapEnd s (F64.ofF32 p)))) := by
  rw [exec_injectTransition]
  exact runCommand_ok (admitted_of_running hl (by decide))
    ((injectTransitionBody_of_inRange (nonNegInRange_iff.2 ⟨hfin, hneg⟩)).trans (symbolStage_gap ..))

/-- INJECT_TRANSITION of a mark in a running block (R412, R1002). -/
theorem exec_injectTransition_mark {p : F32} (hl : s.life = .running)
    (hfin : (F64.ofF32 p).isFinite = true) (hneg : F64.lt (F64.ofF32 p) F64.zero = false)
    (hmark : symMarkEnd s (F64.ofF32 p) = .ok u) :
    exec (.injectTransition true p) s = .next (bumpPc (emit u)) := by
  rw [exec_injectTransition]
  exact runCommand_ok (admitted_of_running hl (by decide))
    ((injectTransitionBody_of_inRange (nonNegInRange_iff.2 ⟨hfin, hneg⟩)).trans
      (symbolStage_mark hmark))

/-- Settles O46: the staged gap is exactly `g`, so the second mark is stitched; the stitched mark is a
real one, so it settles as a pulse. -/
theorem glitchIsStitchedIntoOnePulse : Obligations.GlitchIsStitchedIntoOnePulse := by
  unfold Obligations.GlitchIsStitchedIntoOnePulse
  intro s g m hl hrest hgfin hgpos hgglitch hmfin hmneg total
  have hgneg : F64.lt (F64.ofF32 g) F64.zero = false :=
    Bool.eq_false_iff.2 fun h => absurd (lt_transitive hgpos h) (by decide)
  set t : State := bumpPc (emit (symGapEnd s (F64.ofF32 g)))
  have hgap : t.sym.lastGapMs = F64.ofF32 g := by
    show s.sym.lastGapMs.add (F64.ofF32 g) = _
    rw [hrest, zero_add_of_pos hgfin hgpos]
  have hstitch := symMarkEnd_of_stitch (s := t) ⟨hgap ▸ hgpos, hgap ▸ hgglitch⟩ (F64.ofF32 m)
  rw [hgap] at hstitch
  refine ⟨t, _, exec_injectTransition_gap hl hgfin hgneg,
    exec_injectTransition_mark hl hmfin hmneg hstitch, rfl, ?_, rfl, fun hreal hroom => ?_⟩
  · show (emitText (emitText s.dec)).paths = s.dec.paths
    rw [emitText_paths, emitText_paths]
  · have htotal := lt_transitive (lt_transitive hgpos hgglitch) hreal
    exact ⟨_, exec_settleMark_of_mark htotal hreal hroom, rfl⟩

end Sys2Proof.Proofs

/-! SUPPORT. BEAM_PRUNE (R1105): the stable sort of R16 on the scores, the one pass over the
sorted candidates as a split of them into what it looked at and the rest, and what of them it
keeps. -/

namespace Sys2Proof.Proofs

open Sys2Proof Sys2Proof.Machine Sys2Proof.Laws

variable {a b p : Path} {l c vs out ps : List Path} {t best : F64} {k : Nat} {cfg : Cfg}

/-! ## The stable sort by score (R16) -/

/-- The sort may place `a` before `b`. -/
abbrev StandsBefore (a b : Path) : Prop := F64.before a.score b.score = false

/-- The scores of `a` and `b` are numbers, and that of `b` is not above that of `a`. -/
abbrev ScoresDescend (a b : Path) : Prop := F64.le b.score a.score = true

theorem sortByScore_cons (a : Path) (c : List Path) :
    sortByScore (a :: c) = List.orderedInsert StandsBefore a (sortByScore c) := rfl

theorem sortByScore_perm (c : List Path) : (sortByScore c).Perm c := List.perm_insertionSort ..

theorem standsBefore_iff (ha : a.score.isNaN = false) (hb : b.score.isNaN = false) :
    StandsBefore a b ↔ ScoresDescend a b := by
  rw [ScoresDescend, ← lt_eq_false_iff ha hb]
  simp [F64.before, ha, hb]

theorem scoresDescend_of_not_standsBefore (ha : a.score.isNaN = false) (hb : b.score.isNaN = false)
    (h : ¬ StandsBefore a b) : ScoresDescend b a := by
  refine le_of_lt ?_
  simpa [F64.before, ha, hb] using h

/-- The candidates before the first whose score is a NaN. The sort orders these, wherever it
places a NaN (log entry 14). -/
def numbered (v : List Path) : List Path := v.takeWhile fun p => !p.score.isNaN

theorem numbered_cons_nan (h : p.score.isNaN = true) : numbered (p :: l) = [] :=
  List.takeWhile_cons_of_neg (by simp [h])

theorem numbered_cons_num (h : p.score.isNaN = false) : numbered (p :: l) = p :: numbered l :=
  List.takeWhile_cons_of_pos (by simp [h])

theorem not_isNaN_of_mem_numbered (h : p ∈ numbered l) : p.score.isNaN = false := by
  simpa using List.mem_takeWhile_imp h

theorem numbered_append {pre post : List Path} (h : ∀ p ∈ pre, p.score.isNaN = false) :
    numbered (pre ++ post) = pre ++ numbered post :=
  List.takeWhile_append_of_pos fun p hp => by simp [h p hp]

/-- An insertion adds no other candidate before the first NaN. -/
theorem mem_numbered_orderedInsert (h : p ∈ numbered (List.orderedInsert StandsBefore a l)) :
    p = a ∨ p ∈ numbered l := by
  induction l with
  | nil => exact .inl (List.mem_singleton.1 (List.takeWhile_subset _ h))
  | cons b l ih =>
    by_cases hab : StandsBefore a b
    · rw [List.orderedInsert_cons_of_le _ _ hab] at h
      cases ha : a.score.isNaN with
      | true => simp [numbered_cons_nan ha] at h
      | false => exact List.mem_cons.1 (numbered_cons_num ha ▸ h)
    · rw [List.orderedInsert_of_not_le _ _ hab] at h
      cases hb : b.score.isNaN with
      | true => simp [numbered_cons_nan hb] at h
      | false =>
        rw [numbered_cons_num hb, List.mem_cons] at h ⊢
        obtain rfl | h := h
        · exact .inr (.inl rfl)
        · exact (ih h).imp_right .inr

theorem numbered_orderedInsert_pairwise (h : (numbered l).Pairwise ScoresDescend) :
    (numbered (List.orderedInsert StandsBefore a l)).Pairwise ScoresDescend := by
  induction l with
  | nil => exact List.Pairwise.sublist (List.takeWhile_sublist _) (List.pairwise_singleton ..)
  | cons b l ih =>
    by_cases hab : StandsBefore a b
    · rw [List.orderedInsert_cons_of_le _ _ hab]
      cases ha : a.score.isNaN with
      | true => simp [numbered_cons_nan ha]
      | false =>
        rw [numbered_cons_num ha, List.pairwise_cons]
        refine ⟨fun q hq => ?_, h⟩
        cases hb : b.score.isNaN with
        | true => simp [numbered_cons_nan hb] at hq
        | false =>
          have hdesc : ScoresDescend a b := (standsBefore_iff ha hb).1 hab
          rw [numbered_cons_num hb] at h hq
          obtain rfl | hq := List.mem_cons.1 hq
          · exact hdesc
          · exact le_trans (List.rel_of_pairwise_cons h hq) hdesc
    · rw [List.orderedInsert_of_not_le _ _ hab]
      cases hb : b.score.isNaN with
      | true => simp [numbered_cons_nan hb]
      | false =>
        rw [numbered_cons_num hb] at h ⊢
        rw [List.pairwise_cons]
        refine ⟨fun q hq => ?_, ih h.of_cons⟩
        obtain rfl | hql := mem_numbered_orderedInsert hq
        · exact scoresDescend_of_not_standsBefore (not_isNaN_of_mem_numbered hq) hb hab
        · exact List.rel_of_pairwise_cons h hql

/-- The sorted candidates before the first NaN stand in non-increasing order of scores. -/
theorem numbered_sortByScore_pairwise (c : List Path) :
    (numbered (sortByScore c)).Pairwise ScoresDescend := by
  induction c with
  | nil => exact List.Pairwise.nil
  | cons a c ih => exact numbered_orderedInsert_pairwise ih

theorem sortByScore_pairwise (h : ∀ p ∈ c, p.score.isNaN = false) :
    (sortByScore c).Pairwise ScoresDescend := by
  have hnum : ∀ p ∈ sortByScore c, p.score.isNaN = false := fun p hp =>
    h p ((sortByScore_perm c).mem_iff.1 hp)
  have hall : numbered (sortByScore c) = sortByScore c :=
    List.takeWhile_eq_self_iff.2 fun p hp => by simp [hnum p hp]
  exact hall ▸ numbered_sortByScore_pairwise c

theorem mem_filter_feq {x : F64} : p ∈ l.filter (fun p => F64.feq p.score x) ↔
    p ∈ l ∧ p.score.isNaN = false ∧ x.isNaN = false ∧ p.score.key = x.key := by
  simp [F64.feq, and_assoc]

/-- Candidates of equal score keep the order in which they came. -/
theorem sortByScore_filter_feq (c : List Path) (x : F64) :
    (sortByScore c).filter (fun p => F64.feq p.score x) =
      c.filter (fun p => F64.feq p.score x) := by
  have hrel : (c.filter (fun p => F64.feq p.score x)).Pairwise StandsBefore := by
    refine List.Pairwise.imp_of_mem (R := fun _ _ => True) (fun {a b} ha hb _ => ?_)
      (List.pairwise_of_forall fun _ _ => trivial)
    obtain ⟨-, hnuma, -, hkeya⟩ := mem_filter_feq.1 ha
    obtain ⟨-, hnumb, -, hkeyb⟩ := mem_filter_feq.1 hb
    exact (standsBefore_iff hnuma hnumb).2 (le_iff.2 ⟨hnumb, hnuma, by omega⟩)
  have hsub := (List.sublist_insertionSort hrel List.filter_sublist).filter
    (fun p => F64.feq p.score x)
  rw [List.filter_filter] at hsub
  simp only [Bool.and_self] at hsub
  exact (hsub.eq_of_length ((sortByScore_perm c).filter _).length_eq.symm).symm

/-! ## The pass over the sorted candidates (R1105) -/

/-- The pass ends at the score window. -/
theorem prunePass_of_outside (h : ¬ F64.le (best.sub t) p.score = true) :
    prunePass t k best out (p :: ps) = out := by
  simp [prunePass, h]

/-- It ends at K paths. -/
theorem prunePass_of_full (h : k ≤ out.length) : prunePass t k best out (p :: ps) = out := by
  simp [prunePass, h]

/-- It skips a last character that it has kept. -/
theorem prunePass_of_seen (hwin : F64.le (best.sub t) p.score = true) (hroom : out.length < k)
    (hseen : p.lastChar ∈ out.map Path.lastChar) :
    prunePass t k best out (p :: ps) = prunePass t k best out ps := by
  rw [prunePass, if_neg (by simp [hwin]), if_neg (by omega), if_pos (List.contains_iff_mem.2 hseen)]

/-- It keeps the first candidate of another one. -/
theorem prunePass_of_new (hwin : F64.le (best.sub t) p.score = true) (hroom : out.length < k)
    (hnew : p.lastChar ∉ out.map Path.lastChar) :
    prunePass t k best out (p :: ps) = prunePass t k best (out ++ [p]) ps := by
  rw [prunePass, if_neg (by simp [hwin]), if_neg (by omega),
    if_neg (by rw [List.contains_iff_mem]; exact hnew)]

/-- The pass that starts with `out` kept looks at the candidates `pre`, keeps `kept` of them, and
stops at `post`. -/
structure PassSplits (t : F64) (k : Nat) (best : F64) (out pre post kept : List Path) : Prop where
  sublist : kept.Sublist pre
  seen : ∀ q ∈ pre, q.lastChar ∈ (out ++ kept).map Path.lastChar
  window : ∀ q ∈ pre, F64.le (best.sub t) q.score = true
  atMost : out.length ≤ k → (out ++ kept).length ≤ k
  fresh : ∀ q ∈ kept, q.lastChar ∉ out.map Path.lastChar
  distinct : (kept.map Path.lastChar).Nodup
  first : ∀ q ∈ kept, pre.find? (fun r => r.lastChar = q.lastChar) = some q
  stops : k ≤ (out ++ kept).length ∨ ∀ q, post.head? = some q → F64.le (best.sub t) q.score = false

/-- The pass that keeps nothing more. -/
theorem passSplits_stop
    (h : k ≤ out.length ∨ ∀ q, ps.head? = some q → F64.le (best.sub t) q.score = false) :
    PassSplits t k best out [] ps [] where
  sublist := List.Sublist.refl _
  seen := nofun
  window := nofun
  atMost := by simp
  fresh := nofun
  distinct := List.nodup_nil
  first := nofun
  stops := by simpa using h

theorem PassSplits.skip {pre post kept : List Path} (h : PassSplits t k best out pre post kept)
    (hwin : F64.le (best.sub t) p.score = true) (hseen : p.lastChar ∈ out.map Path.lastChar) :
    PassSplits t k best out (p :: pre) post kept where
  sublist := h.sublist.cons p
  seen := List.forall_mem_cons.2 ⟨by simpa using Or.inl (by simpa using hseen), h.seen⟩
  window := List.forall_mem_cons.2 ⟨hwin, h.window⟩
  atMost := h.atMost
  fresh := h.fresh
  distinct := h.distinct
  first q hq := by
    have hne : p.lastChar ≠ q.lastChar := fun he => h.fresh q hq (he ▸ hseen)
    rw [List.find?_cons_of_neg (by simpa using hne), h.first q hq]
  stops := h.stops

theorem PassSplits.keep {pre post kept : List Path}
    (h : PassSplits t k best (out ++ [p]) pre post kept)
    (hwin : F64.le (best.sub t) p.score = true) (hroom : out.length < k)
    (hnew : p.lastChar ∉ out.map Path.lastChar) :
    PassSplits t k best out (p :: pre) post (p :: kept) := by
  have happend : (out ++ [p]) ++ kept = out ++ p :: kept := by simp
  have hfresh : ∀ q ∈ kept, q.lastChar ∉ out.map Path.lastChar ∧ q.lastChar ≠ p.lastChar := by
    intro q hq
    simpa [not_or] using h.fresh q hq
  exact {
    sublist := h.sublist.cons_cons p
    seen := List.forall_mem_cons.2 ⟨by simp, happend ▸ h.seen⟩
    window := List.forall_mem_cons.2 ⟨hwin, h.window⟩
    atMost := fun _ => happend ▸ h.atMost (by simpa using hroom)
    fresh := List.forall_mem_cons.2 ⟨hnew, fun q hq => (hfresh q hq).1⟩
    distinct := by
      rw [List.map_cons, List.nodup_cons]
      refine ⟨fun hmem => ?_, h.distinct⟩
      obtain ⟨q, hq, heq⟩ := List.mem_map.1 hmem
      exact (hfresh q hq).2 heq
    first := by
      refine List.forall_mem_cons.2 ⟨List.find?_cons_of_pos (by simp), fun q hq => ?_⟩
      rw [List.find?_cons_of_neg (by simpa using (hfresh q hq).2.symm), h.first q hq]
    stops := happend ▸ h.stops }

/-- The pass along the candidates. -/
theorem prunePass_splits (t : F64) (k : Nat) (best : F64) (out ps : List Path) :
    ∃ pre post kept, ps = pre ++ post ∧ prunePass t k best out ps = out ++ kept ∧
      PassSplits t k best out pre post kept := by
  induction ps generalizing out with
  | nil => exact ⟨[], [], [], rfl, (List.append_nil _).symm, passSplits_stop (.inr nofun)⟩
  | cons p ps ih =>
    by_cases hwin : F64.le (best.sub t) p.score = true
    · by_cases hroom : out.length < k
      · by_cases hseen : p.lastChar ∈ out.map Path.lastChar
        · obtain ⟨pre, post, kept, rfl, hpass, h⟩ := ih out
          exact ⟨p :: pre, post, kept, rfl, (prunePass_of_seen hwin hroom hseen).trans hpass,
            h.skip hwin hseen⟩
        · obtain ⟨pre, post, kept, rfl, hpass, h⟩ := ih (out ++ [p])
          exact ⟨p :: pre, post, p :: kept, rfl,
            by rw [prunePass_of_new hwin hroom hseen, hpass, List.append_assoc]; rfl,
            h.keep hwin hroom hseen⟩
      · exact ⟨[], p :: ps, [], rfl, by rw [prunePass_of_full (by omega), List.append_nil],
          passSplits_stop (.inl (by omega))⟩
    · exact ⟨[], p :: ps, [], rfl, by rw [prunePass_of_outside hwin, List.append_nil],
        passSplits_stop (.inr fun q hq => by cases hq; exact Bool.eq_false_iff.2 hwin)⟩

/-! ## BEAM_PRUNE -/

theorem beamPrune_of_sorted (h : sortByScore c = p :: vs) :
    beamPrune cfg c = prunePass cfg.pruneThreshold cfg.beamWidth p.score [] (p :: vs) := by
  unfold beamPrune
  rw [h]

/-- Nothing is kept, or the pass goes on after the best candidate. -/
theorem beamPrune_cases (cfg : Cfg) (c : List Path) :
    beamPrune cfg c = [] ∨ ∃ v pre post kept, sortByScore c = v :: (pre ++ post) ∧
      beamPrune cfg c = v :: kept ∧ 1 ≤ cfg.beamWidth ∧
      F64.le (v.score.sub cfg.pruneThreshold) v.score = true ∧
      PassSplits cfg.pruneThreshold cfg.beamWidth v.score [v] pre post kept := by
  cases hsort : sortByScore c with
  | nil => exact .inl (by rw [beamPrune, hsort])
  | cons v vs =>
    rw [beamPrune_of_sorted hsort]
    by_cases hwin : F64.le (v.score.sub cfg.pruneThreshold) v.score = true
    · by_cases hk : 1 ≤ cfg.beamWidth
      · obtain ⟨pre, post, kept, rfl, hpass, h⟩ :=
          prunePass_splits cfg.pruneThreshold cfg.beamWidth v.score [v] vs
        exact .inr ⟨v, pre, post, kept, rfl,
          (prunePass_of_new hwin hk List.not_mem_nil).trans hpass, hk, hwin, h⟩
      · exact .inl (prunePass_of_full (by simpa using hk))
    · exact .inl (prunePass_of_outside hwin)

/-- What BEAM_PRUNE keeps has the form of R1112, whatever the scores and the registers are. -/
theorem beamPrune_ordered (cfg : Cfg) (c : List Path) :
    BeamOrdered cfg.beamWidth cfg.pruneThreshold (beamPrune cfg c) := by
  obtain hnil | ⟨v, pre, post, kept, hsort, hkeep, hk, hwin, h⟩ := beamPrune_cases cfg c
  · rw [hnil]
    exact ⟨List.Pairwise.nil, Nat.zero_le _, nofun, List.nodup_nil⟩
  · have hwindow : ∀ q ∈ v :: pre, F64.le (v.score.sub cfg.pruneThreshold) q.score = true :=
      List.forall_mem_cons.2 ⟨hwin, h.window⟩
    have hsub : (v :: kept).Sublist (v :: pre) := h.sublist.cons_cons v
    have hsorted : (v :: pre).Pairwise ScoresDescend := by
      have hnum : ∀ q ∈ v :: pre, q.score.isNaN = false := fun q hq => (le_iff.1 (hwindow q hq)).2.1
      have hall := numbered_sortByScore_pairwise c
      rw [hsort, ← List.cons_append, numbered_append hnum] at hall
      exact hall.sublist (List.sublist_append_left ..)
    rw [hkeep]
    refine ⟨hsorted.sublist hsub, h.atMost hk, fun p0 hp0 q hq => ?_, ?_⟩
    · cases hp0
      exact hwindow q (hsub.subset hq)
    · refine List.nodup_cons.2 ⟨fun hmem => ?_, h.distinct⟩
      obtain ⟨q, hq, heq⟩ := List.mem_map.1 hmem
      exact h.fresh q hq (by simp [heq])

theorem mem_of_mem_beamPrune (h : p ∈ beamPrune cfg c) : p ∈ c := by
  obtain hnil | ⟨v, pre, post, kept, hsort, hkeep, -, -, hpass⟩ := beamPrune_cases cfg c
  · rw [hnil] at h
    cases h
  · rw [← (sortByScore_perm c).mem_iff, hsort, ← List.cons_append]
    rw [hkeep] at h
    exact List.mem_append_left _ ((hpass.sublist.cons_cons v).subset h)

/-! ## The best candidate is kept -/

/-- The part of the registers that BEAM_PRUNE reads, as RESET checks it (R7). -/
abbrev PruneRegistersOk (cfg : Cfg) : Prop :=
  1 ≤ cfg.beamWidth ∧ cfg.pruneThreshold.isFinite = true ∧ F64.le F64.zero cfg.pruneThreshold = true

/-- Taking a finite number that is not negative does not raise a number. -/
theorem sub_nonneg_le_self {x y : F64} (hx : x.isNaN = false) (hfin : y.isFinite = true)
    (hy : F64.le F64.zero y = true) : F64.le (x.sub y) x = true := by
  cases hinf : x.isInf with
  | true =>
    have hsub : x.sub y = x := by
      have hnan : y.neg.isNaN = false := isNaN_eq_false_of_finite ((neg_isFinite y).trans hfin)
      have hninf : y.neg.isInf = false := isInf_eq_false_of_finite ((neg_isFinite y).trans hfin)
      rw [F64.sub, F64.add, hx, hnan, hinf, hninf]
      rfl
    rw [hsub]
    exact le_self hx
  | false =>
    have hxfin : x.isFinite = true := by
      have hle := isNaN_eq_false_iff.1 hx
      have hne : x.mag ≠ F64.infMag := by simpa [F64.isInf] using hinf
      exact isFinite_iff.2 (by omega)
    exact sub_le_self hxfin hfin hy

/-- BEAM_PRUNE of some candidates, all with numbers for scores, keeps the first of the sorted
ones. -/
theorem beamPrune_of_numbers (hcfg : PruneRegistersOk cfg) (hne : c ≠ [])
    (hnum : ∀ p ∈ c, p.score.isNaN = false) :
    ∃ v pre post kept, sortByScore c = v :: (pre ++ post) ∧ beamPrune cfg c = v :: kept ∧
      PassSplits cfg.pruneThreshold cfg.beamWidth v.score [v] pre post kept := by
  obtain ⟨hk, hfin, hnonneg⟩ := hcfg
  obtain ⟨v, vs, hsort⟩ := List.exists_cons_of_ne_nil fun hnil : sortByScore c = [] =>
    hne (List.nil_perm.1 (hnil ▸ sortByScore_perm c))
  have hv : v.score.isNaN = false := hnum v ((sortByScore_perm c).mem_iff.1 (by simp [hsort]))
  obtain ⟨pre, post, kept, rfl, hpass, h⟩ :=
    prunePass_splits cfg.pruneThreshold cfg.beamWidth v.score [v] vs
  refine ⟨v, pre, post, kept, hsort, ?_, h⟩
  have hwin := sub_nonneg_le_self hv hfin hnonneg
  exact (beamPrune_of_sorted hsort).trans ((prunePass_of_new hwin hk List.not_mem_nil).trans hpass)

theorem beamPrune_ne_nil (hcfg : PruneRegistersOk cfg) (hne : c ≠ [])
    (hnum : ∀ p ∈ c, p.score.isNaN = false) : beamPrune cfg c ≠ [] := by
  obtain ⟨v, pre, post, kept, -, hkeep, -⟩ := beamPrune_of_numbers hcfg hne hnum
  exact hkeep ▸ List.cons_ne_nil v kept

theorem exec_beamPrune (s : State) :
    exec .beamPrune s = .next { s with ret := .paths (beamPrune s.cfg s.args.cands) } := rfl

/-- In a list in order of scores, the first of a last character is the best of it. -/
theorem scoresDescend_of_find? (hsorted : l.Pairwise ScoresDescend) (hnum : p.score.isNaN = false)
    (hp : l.find? (fun r => r.lastChar = p.lastChar) = some p) (hb : b ∈ l)
    (hchar : b.lastChar = p.lastChar) : ScoresDescend p b := by
  obtain ⟨-, l1, l2, rfl, hbefore⟩ := List.find?_eq_some_iff_append.1 hp
  obtain hb | hb := List.mem_append.1 hb
  · simpa [hchar] using hbefore b hb
  · obtain rfl | hb := List.mem_cons.1 hb
    · exact le_self hnum
    · exact List.rel_of_pairwise_cons (List.pairwise_append.1 hsorted).2.1 hb

/-- Settles O49: `v` is the sorted list; the pass over it, split at the place where it stops,
gives every clause. -/
theorem beamPruneKeepsTheBest : Obligations.BeamPruneKeepsTheBest := by
  unfold Obligations.BeamPruneKeepsTheBest
  intro s hne hnum hk hfin hnonneg
  set cs := s.args.cands
  obtain ⟨v, pre, post, kept, hsort, hkeep, h⟩ := beamPrune_of_numbers ⟨hk, hfin, hnonneg⟩ hne hnum
  have hmem (q : Path) : q ∈ v :: (pre ++ post) ↔ q ∈ cs := by
    rw [← hsort]
    exact (sortByScore_perm cs).mem_iff
  have hsorted : (v :: (pre ++ post)).Pairwise ScoresDescend := hsort ▸ sortByScore_pairwise hnum
  have hbest : ∀ q ∈ v :: (pre ++ post), ScoresDescend v q := List.forall_mem_cons.2
    ⟨le_self (hnum v ((hmem v).1 (by simp))), fun q hq => List.rel_of_pairwise_cons hsorted hq⟩
  have hsub : (v :: kept).Sublist (v :: pre) := h.sublist.cons_cons v
  have hin : (v :: kept).Sublist (v :: (pre ++ post)) :=
    hsub.trans ((List.sublist_append_left pre post).cons_cons v)
  have hseen : ∀ q ∈ v :: pre, q.lastChar ∈ (v :: kept).map Path.lastChar :=
    List.forall_mem_cons.2 ⟨by simp, h.seen⟩
  have hfirst : ∀ q ∈ v :: kept,
      (v :: (pre ++ post)).find? (fun r => r.lastChar = q.lastChar) = some q := by
    refine List.forall_mem_cons.2 ⟨List.find?_cons_of_pos (by simp), fun q hq => ?_⟩
    have hchar : v.lastChar ≠ q.lastChar := by simpa [eq_comm] using h.fresh q hq
    rw [List.find?_cons_of_neg (by simpa using hchar), List.find?_append, h.first q hq]
    rfl
  refine ⟨v, kept, v :: (pre ++ post), by rw [exec_beamPrune, hkeep],
    hkeep ▸ beamPrune_ordered s.cfg cs, fun q hq => (hmem q).1 (hin.subset hq),
    fun q hq => hbest q ((hmem q).2 hq), fun q hq b hb hchar => ?_, fun hshort q hq hwin => ?_,
    hsort ▸ sortByScore_perm cs, hsorted, fun x => hsort ▸ sortByScore_filter_feq cs x, rfl, hin,
    hfirst, v :: pre, post, rfl, hsub, hseen⟩
  · exact scoresDescend_of_find? hsorted (hnum q ((hmem q).1 (hin.subset hq))) (hfirst q hq)
      ((hmem b).2 hb) hchar
  · obtain hq | hq := List.mem_append.1 (show q ∈ (v :: pre) ++ post from (hmem q).2 hq)
    · exact hseen q hq
    · obtain hfull | hstop := h.stops
      · exact absurd hshort (by simpa using hfull)
      · obtain ⟨r, rest, rfl⟩ := List.exists_cons_of_ne_nil (List.ne_nil_of_mem hq)
        have hr : ScoresDescend r q := by
          obtain rfl | hq := List.mem_cons.1 hq
          · exact le_self (le_iff.1 hwin).2.1
          · exact List.rel_of_pairwise_cons (List.pairwise_append.1 hsorted.of_cons).2.1 hq
        exact absurd (le_trans hwin hr) (Bool.eq_false_iff.1 (hstop r rfl))

end Sys2Proof.Proofs

/-! SUPPORT. The beam under every step (R1112): where an instruction takes the paths from,
operation by operation, and that BEAM_PRUNE keeps the form of the beam and, of candidates whose
scores are numbers, one path at least. -/

namespace Sys2Proof.Proofs

open Sys2Proof Sys2Proof.Machine Sys2Proof.Laws

variable {i : Instr} {s s' t u : State} {sig : List F64} {A B : Prop}

/-! ## Decoding on numbers -/

/-- There is a path, the registers are as RESET checks them, and every score that a prune may meet
when `sig` is decoded is a number. -/
def DecodesNumbers (s : State) (sig : List F64) : Prop :=
  s.dec.paths ≠ [] ∧ PruneRegistersOk s.cfg ∧ ScoresAreNumbers s sig

/-- The same wherever a step may decode: on the latch's vector, on the pulse buffer, and on the
pulse buffer that SETTLE_MARK leaves. -/
def StepDecodesNumbers (s : State) : Prop :=
  DecodesNumbers s s.args.vec ∧ DecodesNumbers s s.sym.pulseBuf ∧
    ∀ u, settleMark s = .ok u → DecodesNumbers u u.sym.pulseBuf

theorem decodesNumbers_congr (hc : s'.cfg = s.cfg) (hd : s'.dec = s.dec)
    (hy : s'.sym.stats = s.sym.stats) (h : DecodesNumbers s sig) : DecodesNumbers s' sig := by
  have hstats : stepStats s' = stepStats s := by rw [stepStats, stepStats, hc, hy]
  unfold DecodesNumbers ScoresAreNumbers
  rwa [hc, hd, hstats]

theorem stepDecodesNumbers_congr (hc : s'.cfg = s.cfg) (hd : s'.dec = s.dec) (hy : s'.sym = s.sym)
    (hp : s'.params = s.params) (ha : s'.args = s.args) (h : StepDecodesNumbers s) :
    StepDecodesNumbers s' := by
  obtain ⟨hlatch, hbuf, hsettled⟩ := h
  have hstats : s'.sym.stats = s.sym.stats := by rw [hy]
  refine ⟨ha ▸ decodesNumbers_congr hc hd hstats hlatch,
    hy ▸ decodesNumbers_congr hc hd hstats hbuf, fun u' hu' => ?_⟩
  obtain ⟨u, hu, hsym⟩ := settleMark_congr hc.symm hy.symm hp.symm hu'
  have hcfg : u'.cfg = u.cfg := by rw [settleMark_frame hu', settleMark_frame hu]; exact hc
  have hdec : u'.dec = u.dec := by rw [settleMark_frame hu', settleMark_frame hu]; exact hd
  rw [← hsym]
  exact decodesNumbers_congr hcfg hdec (by rw [hsym]) (hsettled u hu)

/-! ## Where the paths come from -/

/-- The paths of `t` are those of `s`, or what BEAM_PRUNE keeps of some candidates; given `A`,
there are candidates and their scores are numbers. -/
def BeamFrom (A : Prop) (s t : State) : Prop :=
  t.dec.paths = s.dec.paths ∨ ∃ c, t.dec.paths = beamPrune s.cfg c ∧
    (A → c ≠ [] ∧ ∀ p ∈ c, p.score.isNaN = false)

theorem beamFrom_of_paths_eq (h : t.dec.paths = s.dec.paths) : BeamFrom A s t := .inl h

theorem BeamFrom.imp (h : BeamFrom A s t) (hBA : B → A) : BeamFrom B s t :=
  h.imp_right fun ⟨c, hpaths, hc⟩ => ⟨c, hpaths, hc ∘ hBA⟩

/-- Where `s'` stands for `s`, and `t'` for `t`. -/
theorem BeamFrom.congr {t' : State} (h : BeamFrom A s t) (hc : s'.cfg = s.cfg)
    (hs : s'.dec.paths = s.dec.paths) (ht : t'.dec.paths = t.dec.paths) : BeamFrom A s' t' := by
  unfold BeamFrom
  rwa [hc, hs, ht]

/-- An operation that runs on a state with the registers, the decoder, the symbol buffer, the
parameters and the latch of `s`, as one on `s`. -/
theorem BeamFrom.decodesFrom (h : BeamFrom (StepDecodesNumbers s') s' t) (hc : s'.cfg = s.cfg)
    (hd : s'.dec = s.dec) (hy : s'.sym = s.sym) (hp : s'.params = s.params)
    (ha : s'.args = s.args) : BeamFrom (StepDecodesNumbers s) s t :=
  (h.imp (stepDecodesNumbers_congr hc hd hy hp ha)).congr hc.symm (by rw [hd]) rfl

/-- The form of the beam is kept. -/
theorem BeamFrom.ordered (h : BeamFrom A s t) (hc : t.cfg = s.cfg)
    (hs : BeamOrdered s.cfg.beamWidth s.cfg.pruneThreshold s.dec.paths) :
    BeamOrdered t.cfg.beamWidth t.cfg.pruneThreshold t.dec.paths := by
  rw [hc]
  obtain hpaths | ⟨c, hpaths, -⟩ := h
  · rwa [hpaths]
  · rw [hpaths]
    exact beamPrune_ordered s.cfg c

/-- And so is one path at least. -/
theorem BeamFrom.ne_nil (h : BeamFrom A s t) (hA : A) (hcfg : PruneRegistersOk s.cfg)
    (hne : s.dec.paths ≠ []) : t.dec.paths ≠ [] := by
  obtain hpaths | ⟨c, hpaths, hc⟩ := h
  · rwa [hpaths]
  · obtain ⟨hcne, hnum⟩ := hc hA
    rw [hpaths]
    exact beamPrune_ne_nil hcfg hcne hnum

/-! ## The decoder's operations -/

/-- BEAM_STEP keeps the paths where it starves, and prunes the candidates where it does not
(R1101). -/
theorem beamStep_paths (s : State) (sig : List F64) :
    (beamStep s sig).dec.paths = s.dec.paths ∨
      candidates s.dec.lm (stepStats s) sig s.dec.paths ≠ [] ∧
        (beamStep s sig).dec.paths =
          beamPrune s.cfg (candidates s.dec.lm (stepStats s) sig s.dec.paths) := by
  unfold beamStep
  dsimp only
  split
  · exact .inl (by rw [countDecoderStarved_dec])
  · next h => exact .inr ⟨h, rfl⟩

theorem beamStep_beamFrom (s : State) (sig : List F64) :
    BeamFrom (DecodesNumbers s sig) s (beamStep s sig) :=
  (beamStep_paths s sig).imp_right fun ⟨hne, hpaths⟩ =>
    ⟨_, hpaths, fun ⟨_, _, hnum⟩ => ⟨hne, fun p hp => (hnum p (.inr hp)).1⟩⟩

/-- The empty buffer is not handed over (R1004). -/
theorem decodeBuffer_paths (s : State) : (decodeBuffer s).dec.paths = s.dec.paths ∨
    (decodeBuffer s).dec.paths = (beamStep s s.sym.pulseBuf).dec.paths := by
  unfold decodeBuffer
  split
  · exact .inl rfl
  · exact .inr rfl

theorem decodeBuffer_beamFrom (s : State) :
    BeamFrom (DecodesNumbers s s.sym.pulseBuf) s (decodeBuffer s) := by
  obtain h | h := decodeBuffer_paths s
  · exact .inl h
  · exact (beamStep_beamFrom s s.sym.pulseBuf).congr rfl rfl h

/-- A path after the buffer is decoded is a path before, or a candidate. -/
theorem mem_decodeBuffer_paths {p : Path} (h : p ∈ (decodeBuffer s).dec.paths) :
    p ∈ s.dec.paths ∨
      p ∈ candidates s.dec.lm (stepStats s) s.sym.pulseBuf s.dec.paths := by
  obtain hkeep | hstep := decodeBuffer_paths s
  · exact .inl (hkeep ▸ h)
  · rw [hstep] at h
    obtain hkeep | ⟨-, hprune⟩ := beamStep_paths s s.sym.pulseBuf
    · exact .inl (hkeep ▸ h)
    · exact .inr (mem_of_mem_beamPrune (hprune ▸ h))

theorem spacedPath_not_isNaN {m : LangModel} {p : Path} (hp : p.score.isNaN = false)
    (hspaced : (p.score.add (lmGet m p.lastChar ' ')).isNaN = false) :
    (spacedPath m p).score.isNaN = false := by
  unfold spacedPath
  split
  · exact hspaced
  · exact hp

/-- BEAM_INJECT_SPACE prunes the spaced paths (R1106). -/
theorem beamInjectSpace_beamFrom (s : State) :
    BeamFrom (s.dec.paths ≠ [] ∧ ∀ p ∈ s.dec.paths, p.score.isNaN = false ∧
      (p.score.add (lmGet s.dec.lm p.lastChar ' ')).isNaN = false) s (beamInjectSpace s) := by
  refine .inr ⟨s.dec.paths.map (spacedPath s.dec.lm), rfl,
    fun ⟨hne, hnum⟩ => ⟨by simpa using hne, ?_⟩⟩
  refine List.forall_mem_map.2 fun p hp => ?_
  obtain ⟨hscore, hspaced⟩ := hnum p hp
  exact spacedPath_not_isNaN hscore hspaced

/-- The space is injected after the buffer is decoded (R1004). -/
theorem injectSpace_decodeBuffer_beamFrom (s : State) :
    BeamFrom (DecodesNumbers s s.sym.pulseBuf) s (beamInjectSpace (decodeBuffer s)) := by
  have hcfg : (decodeBuffer s).cfg = s.cfg := by rw [decodeBuffer_frame]
  have hlm : (decodeBuffer s).dec.lm = s.dec.lm := by rw [decodeBuffer_frame]
  obtain hkeep | ⟨c, hprune, hc⟩ := beamInjectSpace_beamFrom (decodeBuffer s)
  · exact (decodeBuffer_beamFrom s).congr rfl rfl hkeep
  · refine .inr ⟨c, hcfg ▸ hprune, fun hnum => hc ⟨?_, fun p hp => ?_⟩⟩
    · obtain ⟨hne, hregs, -⟩ := id hnum
      exact (decodeBuffer_beamFrom s).ne_nil hnum hregs hne
    · obtain ⟨-, -, hscores⟩ := hnum
      rw [hlm]
      exact hscores p (mem_decodeBuffer_paths hp)

/-! ## Settling and stages -/

theorem settleGap_beamFrom (h : settleGap s = .ok t) :
    BeamFrom (DecodesNumbers s s.sym.pulseBuf) s t := by
  unfold settleGap at h
  split at h
  · dsimp only at h
    split at h <;> cases h
    · exact injectSpace_decodeBuffer_beamFrom s
    · exact decodeBuffer_beamFrom s
  · split at h
    · exact .inl (by rw [pushPulse_ok h])
    · cases h
      exact .inl rfl

theorem settleMark_dec (h : settleMark s = .ok t) : t.dec = s.dec := by rw [settleMark_frame h]

/-- An operation on the state that SETTLE_MARK leaves, as one on the state before. -/
theorem beamFrom_of_settleMark (hmark : settleMark s = .ok u)
    (h : BeamFrom (DecodesNumbers u u.sym.pulseBuf) u t) : BeamFrom (StepDecodesNumbers s) s t := by
  have hcfg : s.cfg = u.cfg := by rw [settleMark_frame hmark]
  refine (h.imp fun hs => ?_).congr hcfg (by rw [settleMark_dec hmark]) rfl
  obtain ⟨-, -, hsettled⟩ := hs
  exact hsettled u hmark

theorem symMarkEnd_beamFrom {d : F64} (h : symMarkEnd s d = .ok t) :
    BeamFrom (StepDecodesNumbers s) s t := by
  unfold symMarkEnd at h
  split at h
  · cases h
    exact .inl rfl
  · split at h
    · cases h
    · next hmark =>
      split at h
      · cases h
      · next hgap =>
        cases h
        exact beamFrom_of_settleMark hmark ((settleGap_beamFrom hgap).congr rfl rfl rfl)

theorem symFlush_beamFrom (h : symFlush s = .ok t) : BeamFrom (StepDecodesNumbers s) s t := by
  unfold symFlush at h
  split at h
  · split at h
    · cases h
    · next u hmark =>
      cases h
      have hdecode :=
        decodeBuffer_beamFrom { u with sym := { u.sym with pendingMarkMs := F64.zero } }
      exact beamFrom_of_settleMark hmark
        ((hdecode.imp (decodesNumbers_congr rfl rfl rfl)).congr rfl rfl rfl)
  · cases h
    exact .inl rfl

theorem symbolStage_beamFrom {ev : Transition} (h : symbolStage s ev = .ok t) :
    BeamFrom (StepDecodesNumbers s) s t := by
  unfold symbolStage at h
  split at h
  · split at h
    · cases h
    · next hmark =>
      cases h
      exact (symMarkEnd_beamFrom hmark).congr rfl rfl (emitText_paths _)
  · cases h
    exact .inl (emitText_paths _)

/-- The symbol stage decodes what it would without the threshold and trigger stages before it. -/
theorem envStage_beamFrom {e : F64} (h : envStage s e = .ok t) :
    BeamFrom (StepDecodesNumbers s) s t := by
  have hdec : (thresholdStage s e).dec = s.dec := by rw [thresholdStage_frame]
  unfold envStage at h
  dsimp only at h
  split at h
  · cases h
  · cases h
    exact .inl (congrArg Decoder.paths hdec)
  · exact (symbolStage_beamFrom h).decodesFrom (by rw [thresholdStage_frame]) hdec
      (by rw [thresholdStage_frame]) (by rw [thresholdStage_frame]) (by rw [thresholdStage_frame])

/-! ## The rules of the commands -/

theorem sampleBody_beamFrom {p : F32} (h : sampleBody p s = .ok t) :
    BeamFrom (StepDecodesNumbers s) s t := by
  unfold sampleBody at h
  split at h
  · cases h
  · split at h
    · cases h
    · next hpush =>
      rw [pushSample_ok hpush] at h
      exact (envStage_beamFrom h).decodesFrom rfl rfl rfl rfl rfl

theorem injectEnvBody_beamFrom {p : F32} (h : injectEnvBody p s = .ok t) :
    BeamFrom (StepDecodesNumbers s) s t := by
  unfold injectEnvBody at h
  split at h
  · cases h
  · exact envStage_beamFrom h

theorem injectTransitionBody_beamFrom {f : Bool} {p : F32}
    (h : injectTransitionBody f p s = .ok t) : BeamFrom (StepDecodesNumbers s) s t := by
  unfold injectTransitionBody at h
  split at h
  · cases h
  · exact symbolStage_beamFrom h

theorem flushBody_beamFrom (h : flushBody s = .ok t) : BeamFrom (StepDecodesNumbers s) s t := by
  unfold flushBody at h
  split at h
  · cases h
  · next hflush =>
    cases h
    exact (symFlush_beamFrom hflush).congr rfl rfl (emitText_paths _)

/-! ## Instructions -/

/-- A command that does not run its rule to the end leaves the decoder as it is. -/
theorem runCommand_beamFrom {op : BitVec 8} {body : State → Except FaultCode State}
    (h : runCommand op body s = .next t) (hbody : ∀ u, body s = .ok u → BeamFrom A s u) :
    BeamFrom A s t := by
  obtain ⟨-, u, hu, rfl⟩ | ⟨-, -, -, rfl⟩ | ⟨-, -, rfl⟩ | ⟨-, -, rfl⟩ := runCommand_cases h
  · exact (hbody u hu).congr rfl rfl rfl
  · exact .inl rfl
  · exact .inl rfl
  · exact .inl rfl

theorem runMicroOp_beamFrom {r : Except FaultCode State} (h : runMicroOp r s = .next t)
    (hrule : ∀ u, r = .ok u → BeamFrom A s u) : BeamFrom A s t := by
  obtain hok | ⟨-, -, -, rfl⟩ | ⟨-, -, -, rfl⟩ := runMicroOp_cases h
  · exact hrule t hok
  · exact .inl rfl
  · exact .inl rfl

theorem next_beamFrom (h : (.next u : Host.Outcome State Fault Refusal) = .next t)
    (hu : u.dec.paths = s.dec.paths) : BeamFrom A s t := by
  cases h
  exact .inl hu

theorem execBiquadStep_dec (h : execBiquadStep s = .next t) : t.dec = s.dec := by
  unfold execBiquadStep at h
  dsimp only at h
  split at h <;> cases h <;> rfl

theorem monitorStep_dec {f : State → State} (hf : (f s).dec = s.dec) :
    (if monitorEnabled s then f s else s).dec = s.dec := by
  split
  · exact hf
  · rfl

/-- Every instruction but RESET keeps the paths or prunes candidates. The operations that decode say
which; every other instruction leaves the paths as they are. -/
theorem exec_beamFrom (hi : i ≠ .reset) (h : exec i s = .next t) :
    BeamFrom (StepDecodesNumbers s) s t := by
  cases i with
  | reset => exact absurd rfl hi
  | sample p => exact runCommand_beamFrom h fun _ hu => sampleBody_beamFrom hu
  | flush => exact runCommand_beamFrom h fun _ hu => flushBody_beamFrom hu
  | injectEnv p => exact runCommand_beamFrom h fun _ hu => injectEnvBody_beamFrom hu
  | injectTransition f p => exact runCommand_beamFrom h fun _ hu => injectTransitionBody_beamFrom hu
  | symMarkEnd => exact runMicroOp_beamFrom h fun _ hu => symMarkEnd_beamFrom hu
  | symFlush => exact runMicroOp_beamFrom h fun _ hu => symFlush_beamFrom hu
  | envStage => exact runMicroOp_beamFrom h fun _ hu => envStage_beamFrom hu
  | symbolStage => exact runMicroOp_beamFrom h fun _ hu => symbolStage_beamFrom hu
  | settleGap =>
    exact runMicroOp_beamFrom h fun _ hu => (settleGap_beamFrom hu).imp fun ⟨_, hbuf, _⟩ => hbuf
  | beamStep =>
    cases h
    exact (beamStep_beamFrom s s.args.vec).imp fun ⟨hlatch, _, _⟩ => hlatch
  | beamInjectSpace =>
    cases h
    exact (beamInjectSpace_beamFrom s).imp fun ⟨⟨hne, _, hnum⟩, _, _⟩ =>
      ⟨hne, fun p hp => hnum p (.inl hp)⟩
  | emitText => exact next_beamFrom h (emitText_paths _)
  | settleMark =>
    exact runMicroOp_beamFrom h fun _ hu => .inl (congrArg Decoder.paths (settleMark_dec hu))
  | nop =>
    rw [exec_nop_eq] at h
    exact next_beamFrom h rfl
  | readStatus =>
    rw [exec_readStatus_eq] at h
    exact next_beamFrom h rfl
  | readResult =>
    rw [exec_readResult] at h
    exact runCommand_beamFrom h fun _ hu => by cases hu; exact .inl rfl
  | chunkEnd =>
    rw [exec_chunkEnd] at h
    refine runCommand_beamFrom h fun u hu => .inl ?_
    rw [← Except.ok.inj hu, chunkEndBody_frame]
  | setTargetFreq p =>
    exact runCommand_beamFrom h fun _ hu => .inl (by rw [setTargetFreqBody_frame hu])
  | biquadStep => exact .inl (congrArg Decoder.paths (execBiquadStep_dec h))
  | monEnqueue => exact next_beamFrom h (by rw [monEnqueue_frame])
  | monDequeue =>
    exact next_beamFrom h (congrArg Decoder.paths (monitorStep_dec (by rw [monDequeue_frame])))
  | monTick =>
    exact next_beamFrom h (congrArg Decoder.paths (monitorStep_dec (by rw [monTick_frame])))
  | acceptAndSmooth => exact next_beamFrom h (by rw [acceptAndSmooth_frame])
  | histSuggest => exact next_beamFrom h (by rw [setRet_dec, histSuggest_frame])
  | athUpdate => exact next_beamFrom h (by rw [setRet_dec, athUpdate_frame])
  | trigStep =>
    refine runMicroOp_beamFrom h fun u hu => ?_
    split at hu <;> cases hu
    exact .inl rfl
  | wpmUpdate => exact next_beamFrom h (by rw [wpmUpdate_frame])
  | lmLoad =>
    refine runMicroOp_beamFrom h fun u hu => ?_
    split at hu <;> cases hu
    exact .inl rfl
  | _ => exact next_beamFrom h rfl

/-! ## RESET -/

/-- The initial path alone, under registers that RESET accepts (R170, R1301). -/
theorem initial_ordered {cfg : Cfg} (h : PruneRegistersOk cfg) :
    BeamOrdered cfg.beamWidth cfg.pruneThreshold [Path.initial] := by
  obtain ⟨hk, hfin, hnonneg⟩ := h
  refine ⟨List.pairwise_singleton .., hk, fun p0 hp0 p hp => ?_, List.nodup_singleton _⟩
  cases hp0
  rw [List.mem_singleton.1 hp]
  exact sub_le_self (by decide) hfin hnonneg

/-- RESET leaves the initial path under registers that it has checked, or faults with the beam as it
was (R406). -/
theorem exec_reset_beam (h : exec .reset s = .next t) :
    (t.dec.paths = [Path.initial] ∧ PruneRegistersOk t.cfg) ∨
      (t.dec = s.dec ∧ t.cfg = s.cfg) := by
  rw [exec_reset] at h
  obtain ⟨-, u, hu, rfl⟩ | ⟨-, -, -, rfl⟩ | ⟨-, -, rfl⟩ | ⟨-, -, rfl⟩ := runCommand_cases h
  · obtain ⟨m, hvalid, rfl⟩ := resetBody_ok hu
    obtain ⟨-, -, hparams, -⟩ := validate_ok_iff.1 hvalid
    obtain ⟨-, -, -, -, hsymbol⟩ := paramsOk_iff.1 hparams
    obtain ⟨-, -, -, -, -, -, hwidth, hprune⟩ := symbolParamsOk_iff.1 hsymbol
    exact .inl ⟨rfl, hwidth, nonNegFinite_iff.1 hprune⟩
  · exact .inr ⟨rfl, rfl⟩
  · exact .inr ⟨rfl, rfl⟩
  · exact .inr ⟨rfl, rfl⟩

/-! ## Steps -/

theorem exec_cfg (hi : i ≠ .reset) (h : exec i s = .next t) : t.cfg = s.cfg :=
  (configurationIsImmutable i s t h).1 hi

theorem illegalCommand_beam (op : BitVec 8) (s : State) :
    (illegalCommand op s).dec = s.dec ∧ (illegalCommand op s).cfg = s.cfg := by
  unfold illegalCommand
  split <;> exact ⟨rfl, rfl⟩

/-- Everything that a step can do to the beam and the registers it is pruned by. -/
theorem step_beam (h : step s = .next t) :
    (BeamFrom (StepDecodesNumbers s) s t ∧ t.cfg = s.cfg) ∨
      (t.dec.paths = [Path.initial] ∧ PruneRegistersOk t.cfg) := by
  obtain ⟨port, turns, rfl | ⟨op, rfl⟩ | ⟨i, hexec⟩⟩ := step_cases h
  · exact .inl ⟨.inl rfl, rfl⟩
  · obtain ⟨hdec, hcfg⟩ := illegalCommand_beam op { s with port := port, turns := turns }
    exact .inl ⟨.inl (congrArg Decoder.paths hdec), hcfg⟩
  · by_cases hi : i = .reset
    · subst hi
      obtain hreset | ⟨hdec, hcfg⟩ := exec_reset_beam hexec
      · exact .inr hreset
      · exact .inl ⟨.inl (congrArg Decoder.paths hdec), hcfg⟩
    · have hcfg := exec_cfg hi hexec
      exact .inl ⟨(exec_beamFrom hi hexec).decodesFrom rfl rfl rfl rfl rfl, hcfg⟩

/-- Settles O57: a step keeps the paths, prunes candidates, or leaves the initial path under checked
registers. -/
theorem stepKeepsBeamOrdered : Obligations.StepKeepsBeamOrdered := by
  unfold Obligations.StepKeepsBeamOrdered
  refine ⟨fun s t hs h => ?_, fun s t hne hk hfin hnonneg hlatch hbuf hsettled h => ?_⟩
  · obtain ⟨hfrom, hcfg⟩ | ⟨hpaths, hregs⟩ := step_beam h
    · exact hfrom.ordered hcfg hs
    · rw [hpaths]
      exact initial_ordered hregs
  · have hregs : PruneRegistersOk s.cfg := ⟨hk, hfin, hnonneg⟩
    obtain ⟨hfrom, -⟩ | ⟨hpaths, -⟩ := step_beam h
    · refine hfrom.ne_nil ⟨⟨hne, hregs, hlatch⟩, ⟨hne, hregs, hbuf⟩, fun u hu => ?_⟩ hregs hne
      have hcfg : u.cfg = s.cfg := by rw [settleMark_frame hu]
      exact ⟨settleMark_dec hu ▸ hne, hcfg ▸ hregs, hsettled u hu⟩
    · exact hpaths ▸ List.cons_ne_nil _ _

end Sys2Proof.Proofs

/-! SUPPORT. The decoder's other micro-ops: the pattern table (R1110), BEAM_STEP and
BEAM_INJECT_SPACE as written in R1101 and R1106, the reads (R1103, R1107, R1109), and LM_LOAD
(R1108). -/

namespace Sys2Proof.Proofs

open Sys2Proof Sys2Proof.Machine Sys2Proof.Laws

variable {s : State}

/-! ## The pattern table -/

theorem sequenceOf_length (code : List Char) : (sequenceOf code).length = 2 * code.length - 1 := by
  rw [sequenceOf, List.length_intersperse, List.length_map]

/-- The marks stand at the even positions. -/
theorem sequenceOf_even (code : List Char) (i : Nat) :
    (sequenceOf code)[2 * i]? = code[i]?.map markOf := by
  rw [sequenceOf, List.getElem?_intersperse_two_mul, List.getElem?_map]

/-- The gap 1.0 stands at the odd ones. -/
theorem sequenceOf_odd {code : List Char} {i : Nat} (h : i + 1 < code.length) :
    (sequenceOf code)[2 * i + 1]? = some F64.one := by
  rw [sequenceOf]
  exact List.getElem?_intersperse_two_mul_add_one (by rwa [List.length_map])

/-- Settles O51: the table is a finite one, and the sequence of any code is its marks with the gap
between. -/
theorem patternsAreWellFormed : Obligations.PatternsAreWellFormed := by
  unfold Obligations.PatternsAreWellFormed
  refine ⟨⟨by decide, by decide, by decide⟩, by decide, by decide, by decide,
    fun code _ => sequenceOf_length code, fun code i ch hch => ?_, fun code i h => sequenceOf_odd h⟩
  rw [sequenceOf_even, hch]
  rfl

/-! ## BEAM_STEP and BEAM_INJECT_SPACE -/

theorem exec_beamStep (s : State) : exec .beamStep s = .next (beamStep s s.args.vec) := rfl

theorem exec_beamInjectSpace (s : State) :
    exec .beamInjectSpace s = .next (beamInjectSpace s) := rfl

theorem countDecoderStarved_eq (s : State) : countDecoderStarved s =
    { s with adv := { s.adv with decoderStarved :=
        if s.adv.decoderStarved = BitVec.allOnes 64 then s.adv.decoderStarved
        else s.adv.decoderStarved + 1 } } := rfl

/-- Settles O47: the candidates of R1101 and the spaced paths of R1106 are the model's. -/
theorem beamStepAndSpaceRun : Obligations.BeamStepAndSpaceRun := by
  unfold Obligations.BeamStepAndSpaceRun
  refine ⟨?_, fun s => ?_⟩
  · intro s sig sd cands
    have hcands : cands = candidates s.dec.lm (stepStats s) sig s.dec.paths := rfl
    rw [exec_beamStep, beamStep, ← countDecoderStarved_eq, ← hcands]
  · rw [exec_beamInjectSpace]
    rfl

/-! ## Reads -/

theorem exec_emissionScore (s : State) : exec .emissionScore s = .next
    { s with ret := .num (emissionScore s.args.vec s.args.vec2 s.args.x s.args.y) } := rfl

theorem exec_beamGetResult (s : State) :
    exec .beamGetResult s = .next { s with ret := .text (beamGetResult s.dec) } := rfl

theorem exec_lmGet (s : State) :
    exec .lmGet s = .next { s with ret := .num (lmGet s.dec.lm s.args.prev s.args.next) } := rfl

/-- The sum of R1103 runs along the pairs of pulses. -/
theorem sumLeft_zipWith (f : F64 → F64 → F64) (v w : List F64) : sumLeft (List.zipWith f v w) =
    (v.zip w).foldl (fun e (p : F64 × F64) => e.add (f p.1 p.2)) F64.zero := by
  rw [sumLeft, ← List.map_uncurry_zip_eq_zipWith, List.foldl_map]
  rfl

variable {m : LangModel} {prev : Option Char} {next : Char}

/-- An entry of the map (R1109). -/
theorem lmGet_of_entry {row : List (Text × F64)} {v : F64} (hrow : m.lookup (lmKey prev) = some row)
    (hv : row.lookup [next] = some v) : lmGet m prev next = v := by
  rw [lmGet, hrow, Option.bind_some, hv]

theorem lmKey_eq_nil_iff : lmKey prev = [] ↔ prev = none := by
  cases prev <;> simp [lmKey]

/-- A default, where the map has no entry. -/
theorem lmGet_of_noEntry (h : ∀ row, m.lookup (lmKey prev) = some row → row.lookup [next] = none) :
    lmGet m prev next = if prev = none then Config.numerics.log F64.twentieth
      else Config.numerics.log F64.millionth := by
  have hnone : (m.lookup (lmKey prev)).bind (fun row => row.lookup [next]) = none :=
    Option.bind_eq_none_iff.2 h
  simp only [lmGet, hnone, lmKey_eq_nil_iff]
  rfl

/-- Settles O48: the scores are summed pair by pair, the best sentence is the first path's, and
LM_GET finds an entry or none. -/
theorem decoderReadsRun : Obligations.DecoderReadsRun := by
  unfold Obligations.DecoderReadsRun
  refine ⟨fun s => ?_, fun s p ps hpaths => ?_, ?_⟩
  · rw [exec_emissionScore, emissionScore, sumLeft_zipWith]
    rfl
  · rw [exec_beamGetResult, beamGetResult_of_paths hpaths]
  · intro s key
    have hkey : key = lmKey s.args.prev := rfl
    rw [exec_lmGet, hkey]
    exact ⟨fun row v hrow hv => by rw [lmGet_of_entry hrow hv], fun h => by rw [lmGet_of_noEntry h]⟩

/-! ## LM_LOAD -/

theorem exec_lmLoad_of_ok {m : LangModel} (h : lmLoad s.args.lm = .ok m) :
    exec .lmLoad s = .next { s with dec := { s.dec with lm := m } } := by
  show execLmLoad s = _
  rw [execLmLoad, h]
  rfl

theorem lmLoad_error {o : Option LmRecord} (h : ∀ m, o = some m → ¬ lmValid m = true) :
    lmLoad o = .error .cfgLmInvalid := by
  cases o with
  | none => rfl
  | some m => exact if_neg (h m rfl)

theorem exec_lmLoad_of_error (h : lmLoad s.args.lm = .error .cfgLmInvalid) :
    exec .lmLoad s = .next (if s.life = .faulted then s
      else { s with faultCode := 0x03, faultInfo := 0, life := .faulted, pc := s.pc + 1 }) := by
  show execLmLoad s = _
  rw [execLmLoad, h]
  show (if s.life = .faulted then _ else _) = _
  split <;> rfl

/-- Settles O50: the map is valid and loaded, or LM_LOAD ends in the fault entry of a micro-op. -/
theorem lmLoadRuns : Obligations.LmLoadRuns := by
  unfold Obligations.LmLoadRuns
  intro s valid
  have hvalid (m : LmRecord) : lmValid m = true ↔ valid m := lmValid_iff
  refine ⟨fun m hm hv => ?_, fun h => ?_⟩
  · exact exec_lmLoad_of_ok (lmLoad_ok_iff.2 ⟨hm, (hvalid m).2 hv⟩)
  · exact exec_lmLoad_of_error (lmLoad_error fun m hm hv => h m hm ((hvalid m).1 hv))

end Sys2Proof.Proofs

/-! SUPPORT. Faults (R1207, R1208, R1209, R1214): with which codes the rule of a command can
fault, where the payload is out of range, where a counter or a fixed capacity overflows, and that
a fault leaves the rest of the state alone. Then the state at power-on (R1300). -/

namespace Sys2Proof.Proofs

open Sys2Proof Sys2Proof.Machine Sys2Proof.Laws

variable {i : Instr} {c : CmdFields} {s t : State} {e : F64} {p : F32}

/-! ## Precision (R1209, R1214) -/

/-- A command but RESET is a rule that faults with INPUT_RANGE or COUNTER_OVERFLOW alone, and that
takes no block into FAULTED of itself. -/
theorem exec_eq_runCommand_of_rule (h : i.fields = some c) (hreset : i ≠ .reset) (s : State) :
    ∃ body, exec i s = runCommand c.op body s ∧
      (∀ x, body s = .error x → x = .inputRange ∨ x = .counterOverflow) ∧
      (admitted s.life c.op = true → ∀ u, body s = .ok u → Effect i s u) := by
  cases i <;> cases h
  case nop => exact ⟨_, exec_nop s, nofun, fun _ u hu => by cases hu; exact Effect.refl s⟩
  case sample p =>
    exact ⟨_, exec_sample p s, fun x hx => sampleBody_error hx, fun _ u hu => sampleBody_effect hu⟩
  case chunkEnd =>
    exact ⟨_, exec_chunkEnd s, nofun, fun _ u hu => by cases hu; exact chunkEndBody_effect s⟩
  case flush =>
    exact ⟨_, exec_flush s, fun x hx => .inr (flushBody_error hx),
      fun ha u hu => flushBody_effect (not_faulted_of_admitted_flush ha) hu⟩
  case reset => exact absurd rfl hreset
  case readResult =>
    exact ⟨_, exec_readResult s, nofun, fun _ u hu => by cases hu; exact respond_effect ..⟩
  case readStatus =>
    exact ⟨_, exec_readStatus s, nofun, fun _ u hu => by cases hu; exact respond_effect ..⟩
  case injectEnv p =>
    exact ⟨_, exec_injectEnv p s, fun x hx => injectEnvBody_error hx,
      fun _ u hu => injectEnvBody_effect hu⟩
  case injectTransition f p =>
    exact ⟨_, exec_injectTransition f p s, fun x hx => injectTransitionBody_error hx,
      fun _ u hu => injectTransitionBody_effect hu⟩
  case setTargetFreq p =>
    exact ⟨_, exec_setTargetFreq p s, fun x hx => .inl (setTargetFreqBody_error hx),
      fun _ u hu => setTargetFreqBody_effect hu⟩

/-- A command but RESET that enters FAULTED takes the fault entry, with a code that is not
RESET's. -/
theorem exec_enters_faulted (hc : i.fields = some c) (hreset : i ≠ .reset) (h : exec i s = .next t)
    (hs : s.life ≠ .faulted) (ht : t.life = .faulted) :
    ∃ x, t = takeFault x (c.op.zeroExtend 32) s ∧
      (x = .cmdState ∨ x = .inputRange ∨ x = .counterOverflow) := by
  obtain ⟨body, hbody, herror, heffect⟩ := exec_eq_runCommand_of_rule hc hreset s
  rw [hbody] at h
  obtain ⟨ha, u, hu, rfl⟩ | ⟨-, x, hx, rfl⟩ | ⟨-, hl, -⟩ | ⟨-, -, rfl⟩ := runCommand_cases h
  · exact absurd ((heffect ha u hu).faulted.1 ht) hs
  · obtain rfl | rfl := herror x hx
    · exact ⟨.inputRange, rfl, .inr (.inl rfl)⟩
    · exact ⟨.counterOverflow, rfl, .inr (.inr rfl)⟩
  · exact absurd hl hs
  · exact ⟨.cmdState, rfl, .inl rfl⟩

/-- A RESET that enters FAULTED takes the fault entry with the code of a check, its record taken
(log entry 4). -/
theorem exec_reset_enters_faulted (h : exec .reset s = .next t) (ht : t.life = .faulted) :
    ∃ x, t = takeFault x 0 (takeRecord s) ∧
      (x = .cfgFilterOrder ∨ x = .cfgSampleRate ∨ x = .cfgParam ∨ x = .cfgLmInvalid) := by
  have hadm : admitted (takeRecord s).life 0x04 = true := admitted_reset _
  rw [exec_reset] at h
  obtain ⟨-, u, hu, rfl⟩ | ⟨-, x, hx, rfl⟩ | ⟨ha, -, -⟩ | ⟨ha, -, -⟩ := runCommand_cases h
  · obtain ⟨m, -, rfl⟩ := resetBody_ok hu
    cases ht
  · have hcode := validate_error (resetBody_error hx)
    refine ⟨x, ?_, hcode⟩
    obtain rfl | rfl | rfl | rfl := hcode <;> rfl
  · rw [hadm] at ha
    cases ha
  · rw [hadm] at ha
    cases ha

/-- Settles O13: a command enters FAULTED by the fault entry alone, which writes four fields. -/
theorem faultsArePrecise : Obligations.FaultsArePrecise := by
  unfold Obligations.FaultsArePrecise
  intro i c s t hc h hs ht
  by_cases hi : i = .reset
  · subst hi
    obtain ⟨x, rfl, hcode⟩ := exec_reset_enters_faulted h ht
    refine ⟨by rw [if_pos rfl]; rfl, .inl ⟨rfl, rfl, ?_⟩⟩
    rw [takeFault_faultCode]
    obtain rfl | rfl | rfl | rfl := hcode <;> decide
  · obtain ⟨x, rfl, hcode⟩ := exec_enters_faulted hc hi h hs ht
    refine ⟨by rw [if_neg hi]; rfl, .inr ⟨hi, rfl, ?_⟩⟩
    rw [takeFault_faultCode]
    obtain rfl | rfl | rfl := hcode <;> decide

/-! ## INPUT_RANGE (R1207) -/

/-- A RUNNING block admits every command, so a rule that faults ends in the fault entry (R400). -/
theorem runCommand_error_of_running {op : BitVec 8} {body : State → Except FaultCode State}
    {x : FaultCode} (hl : s.life = .running) (hop : op.toNat ≤ 0x09) (hb : body s = .error x) :
    runCommand op body s = .next (takeFault x (faultInfoOf x op) s) :=
  runCommand_error (admitted_of_running hl hop) hb

theorem sampleInRange_of_out
    (h : (F64.ofF32 p).isFinite = false ∨ F64.lt F64.one (F64.ofF32 p).abs = true) :
    sampleInRange p = false := by
  rw [Bool.eq_false_iff, Ne, sampleInRange_iff]
  rintro ⟨hfin, habs⟩
  simp [hfin, habs] at h

theorem nonNegInRange_of_out
    (h : (F64.ofF32 p).isFinite = false ∨ F64.lt (F64.ofF32 p) F64.zero = true) :
    nonNegInRange p = false := by
  rw [Bool.eq_false_iff, Ne, nonNegInRange_iff]
  rintro ⟨hfin, hneg⟩
  simp [hfin, hneg] at h

theorem freqInRange_of_out {fs : F64}
    (h : (F64.ofF32 p).isFinite = false ∨ F64.le (F64.ofF32 p) F64.zero = true ∨
      F64.le (fs.div F64.two) (F64.ofF32 p) = true) : freqInRange fs p = false := by
  obtain h | h | h := h <;> simp [freqInRange, payload, h]

theorem sampleBody_of_out
    (h : (F64.ofF32 p).isFinite = false ∨ F64.lt F64.one (F64.ofF32 p).abs = true) :
    sampleBody p s = .error .inputRange := by
  rw [sampleBody, sampleInRange_of_out h]
  rfl

theorem injectEnvBody_of_out
    (h : (F64.ofF32 p).isFinite = false ∨ F64.lt (F64.ofF32 p) F64.zero = true) :
    injectEnvBody p s = .error .inputRange := by
  rw [injectEnvBody, nonNegInRange_of_out h]
  rfl

theorem injectTransitionBody_of_out (f : Bool)
    (h : (F64.ofF32 p).isFinite = false ∨ F64.lt (F64.ofF32 p) F64.zero = true) :
    injectTransitionBody f p s = .error .inputRange := by
  rw [injectTransitionBody, nonNegInRange_of_out h]
  rfl

theorem setTargetFreqBody_of_out
    (h : (F64.ofF32 p).isFinite = false ∨ F64.le (F64.ofF32 p) F64.zero = true ∨
      F64.le (s.cfg.fs.div F64.two) (F64.ofF32 p) = true) :
    setTargetFreqBody p s = .error .inputRange := by
  rw [setTargetFreqBody, freqInRange_of_out h]
  rfl

/-- Settles O11: each rule checks its payload first. -/
theorem inputRangeFaults : Obligations.InputRangeFaults := by
  unfold Obligations.InputRangeFaults
  intro s p hl
  refine ⟨fun h => ?_, fun h => ?_, fun h f => ?_, fun h => ?_⟩
  · exact runCommand_error_of_running hl (by decide) (sampleBody_of_out h)
  · exact runCommand_error_of_running hl (by decide) (injectEnvBody_of_out h)
  · exact runCommand_error_of_running hl (by decide) (injectTransitionBody_of_out f h)
  · exact runCommand_error_of_running hl (by decide) (setTargetFreqBody_of_out h)

/-! ## COUNTER_OVERFLOW (R1208, R206, R207) -/

theorem trigStep_of_limit {tr : Trigger} (cfg : Cfg) (x high low : F64)
    (h : tr.total = BitVec.allOnes 64) : trigStep cfg tr x high low = .error .counterOverflow := by
  unfold trigStep
  dsimp only
  rw [debounceStep_total]
  exact if_pos h

theorem envStage_of_limit (h : s.trig.total = BitVec.allOnes 64) (e : F64) :
    envStage s e = .error .counterOverflow := by
  have htrig : (thresholdStage s e).trig = s.trig := by rw [thresholdStage_frame]
  unfold envStage
  dsimp only
  rw [htrig, trigStep_of_limit _ _ _ _ h]

theorem symbolStage_overflow {x : F64} (h : MarkEndOverflows s) :
    symbolStage s ⟨true, x⟩ = .error .counterOverflow := by
  unfold symbolStage
  simp only [if_true, symMarkEnd_overflow x h]

/-- The mark that an envelope ends overflows after the threshold and trigger stages as it does
before. -/
theorem envStage_overflow (hmark : EndsMark s e) (hover : MarkEndOverflows s) :
    envStage s e = .error .counterOverflow := by
  obtain ⟨tr, ⟨finished, x⟩, htrig, hfinished⟩ := hmark
  obtain rfl : finished = true := hfinished
  rw [envStage_event htrig]
  exact symbolStage_overflow (markEndOverflows_congr (by rw [thresholdStage_frame])
    (by rw [thresholdStage_frame]) (by rw [thresholdStage_frame]) hover)

theorem symFlush_overflow (h : MarkOverflows s) : symFlush s = .error .counterOverflow := by
  obtain ⟨hpending, -, -⟩ := id h
  unfold symFlush
  rw [if_pos hpending, settleMark_overflow h]

theorem flushBody_overflow (h : MarkOverflows s) : flushBody s = .error .counterOverflow := by
  unfold flushBody
  rw [symFlush_overflow h]

theorem injectEnvBody_of_inRange (h : nonNegInRange p = true) :
    injectEnvBody p s = envStage s (F64.ofF32 p) := by
  unfold injectEnvBody
  rw [h]
  rfl

theorem pushSample_full (v : F64) (h : ChunkFull s) : pushSample s v = .error .counterOverflow := by
  obtain ⟨hon, cap, hcap, hlen⟩ := h
  unfold pushSample
  rw [if_pos hon, hcap]
  exact if_pos (by omega)

theorem sampleBody_full (hrange : sampleInRange p = true) (h : ChunkFull s) :
    sampleBody p s = .error .counterOverflow := by
  unfold sampleBody
  rw [hrange, pushSample_full _ h]
  rfl

/-- The three bounds of SAMPLE: the accumulator comes first, then ENV_STAGE. -/
theorem sampleBody_overflow (hrange : sampleInRange p = true)
    (h : s.trig.total = BitVec.allOnes 64 ∨ ChunkFull s ∨
      (EndsMark s (sdrStep s.cfg s.demod (F64.ofF32 p)).2 ∧ MarkEndOverflows s)) :
    sampleBody p s = .error .counterOverflow := by
  by_cases hchunk : ChunkFull s
  · exact sampleBody_full hrange hchunk
  · rw [sampleBody_of_inRange hrange hchunk]
    obtain hlimit | hfull | ⟨hmark, hover⟩ := h
    · exact envStage_of_limit (s := sampled p s) hlimit _
    · exact absurd hfull hchunk
    · exact envStage_overflow (s := sampled p s) (endsMark_congr (s := s) rfl rfl rfl hmark)
        (markEndOverflows_congr (s := s) rfl rfl rfl hover)

/-- A micro-op by itself whose rule exceeds a bound (log entry 7). -/
theorem runMicroOp_overflow {r : Except FaultCode State} (hr : r = .error .counterOverflow) :
    runMicroOp r s = if s.life = .faulted then .next s else
      .next { s with faultCode := 0x13, faultInfo := s.args.op.zeroExtend 32, life := .faulted,
                     pc := s.pc + 1 } := by
  rw [hr]
  rfl

/-- Settles O12: each rule exceeds its bound, and acceptance or the end of the micro-op makes the
fault. -/
theorem counterOverflowFaults : Obligations.CounterOverflowFaults := by
  unfold Obligations.CounterOverflowFaults
  intro s fault microFault
  refine ⟨fun p hl hfin hneg => ?injected, fun p hl hfin habs h => ?sample, fun hl h => ?flush,
    fun h => ?limit, fun h => ?mark, fun h => ?gap, fun h => ?markEnd⟩
  case injected =>
    have hrange : nonNegInRange p = true := nonNegInRange_iff.2 ⟨hfin, hneg⟩
    refine ⟨fun h => ?_, fun hmark hover => ?_, fun h => ?_⟩
    · exact runCommand_error_of_running hl (by decide)
        ((injectEnvBody_of_inRange hrange).trans (envStage_of_limit h _))
    · exact runCommand_error_of_running hl (by decide)
        ((injectEnvBody_of_inRange hrange).trans (envStage_overflow hmark hover))
    · exact runCommand_error_of_running hl (by decide)
        ((injectTransitionBody_of_inRange hrange).trans (symbolStage_overflow h))
  case sample =>
    exact runCommand_error_of_running hl (by decide)
      (sampleBody_overflow (sampleInRange_iff.2 ⟨hfin, habs⟩) h)
  case flush => exact runCommand_error_of_running hl (by decide) (flushBody_overflow h)
  case limit =>
    refine ⟨runMicroOp_overflow ?_, runMicroOp_overflow (envStage_of_limit h _)⟩
    rw [trigStep_of_limit _ _ _ _ h]
  case mark =>
    exact ⟨runMicroOp_overflow (settleMark_overflow h), runMicroOp_overflow (symFlush_overflow h)⟩
  case gap => exact runMicroOp_overflow (settleGap_overflow h)
  case markEnd =>
    refine ⟨runMicroOp_overflow (symMarkEnd_overflow _ h), fun hflag => runMicroOp_overflow ?_,
      fun hmark => runMicroOp_overflow (envStage_overflow hmark h)⟩
    rw [latchedTransition, hflag]
    exact symbolStage_overflow h

/-! ## Power-on (R1300) -/

/-- Settles O60: the rings are empty, the counts and stamps 0, the beam is the initial path under
the defaults of R7, and the fault registers are clear. -/
theorem powerOnMeetsTheInvariants : Obligations.PowerOnMeetsTheInvariants := by
  unfold Obligations.PowerOnMeetsTheInvariants
  have hprune : PruneRegistersOk State.reset.cfg := by decide
  exact ⟨⟨empty_form _, empty_form _, empty_form _⟩, ⟨by decide, Nat.zero_le _, Nat.zero_le _⟩,
    ⟨Nat.le_refl _, nofun⟩, initial_ordered hprune, by decide, by decide⟩

end Sys2Proof.Proofs
